-- ==== Sys2Proof/Word.lean ====
section
/-! DEFINITION. The words of the WG416: addresses, data words, byte masks, source, slot and window numbers
(spec/00_scope.md, Conventions; spec/12_formats_and_codes.md, 12.1). -/

namespace Sys2Proof

/-- One byte lane. -/
abbrev Byte := BitVec 8
/-- A word: four byte lanes, lane `k` being bits `8k+7` to `8k` (spec/12). -/
abbrev Word := BitVec 32
/-- An upstream or memory byte address: 24 bits, 0 to 16 MiB − 1 (spec/00, Addresses). -/
abbrev Addr := BitVec 24
/-- A byte mask: bit `k` for lane `k` (spec/12). -/
abbrev Mask := BitVec 4
/-- A source number, 0 to 15 (R1). -/
abbrev Source := Fin 16
/-- A group slot, 0 to 3 (R24). -/
abbrev SlotId := Fin 4
/-- A Window Table index, 0 to 7 (R8). -/
abbrev WindowId := Fin 8
/-- An arrival stamp or an ordering epoch, 0 to 255 (R73, R91). -/
abbrev Stamp := BitVec 8

end Sys2Proof
end

