-- ==== Sys2Proof/Syntax.lean ====
section
/-! DEFINITION. The commands of the WG416: one constructor for each row of spec/opcode_table.json, in its order. -/

namespace Sys2Proof

/-- A command: an event that reaches the part. `guard` is the level of GUARD_N at the arrival (`true` when asserted,
log 4); `parityFault` is the memory's own indication (R145, log 5). -/
inductive Instr where
  /-- READ (R105): source and upstream address. -/
  | read (src : Source) (addr : Addr)
  /-- READ_COMPOSITION (R106): the completion of a READ's word read. -/
  | readComposition (parityFault : Bool)
  /-- WRITE (R7): source, upstream address, byte mask, data. -/
  | write (src : Source) (addr : Addr) (mask : Mask) (data : Word) (guard : Bool)
  /-- OPEN (R28): the argument is the declared count. -/
  | openMark (src : Source) (count : Byte)
  /-- COMMIT (R43): the argument is ignored (R5). -/
  | commitMark (src : Source) (arg : Byte) (guard : Bool)
  /-- DISCARD (R47): the argument is the reason code. -/
  | discardMark (src : Source) (reason : Byte)
  /-- ORDER (R95): the argument is ignored (R5). -/
  | orderMark (src : Source) (arg : Byte)
  /-- FLUSH (R80): the argument is ignored (R5). -/
  | flushMark (src : Source) (arg : Byte)
  /-- BADMARK (R5): a MARK whose code names no mark. -/
  | badMark (src : Source) (code : BitVec 4) (arg : Byte)
  /-- TICK (R86). -/
  | tick
  /-- HOLD_EXPIRY (R76) of one source's hold record. -/
  | holdExpiry (src : Source)
  /-- COLLECT_EXPIRY (R84) of one source's completion record. -/
  | collectExpiry (src : Source)
  /-- DRAIN_WRITE_COMPLETION (R97). -/
  | drainWriteCompletion
  /-- BEGINNING_OF_SEAL (R123). -/
  | beginningOfSeal
  /-- SEAL_WRITE_COMPLETION (R124). -/
  | sealWriteCompletion
  /-- HOME_WRITE_COMPLETION (R133). -/
  | homeWriteCompletion
  /-- RETIREMENT (R135). -/
  | retirement
  /-- PFAIL_N_ASSERTED (R151). -/
  | pfailAsserted
  /-- PFAIL_N_DEASSERTED (R153). -/
  | pfailDeasserted
  /-- POWER_ON_RESET (R157): RESET_N is asserted or power is applied. -/
  | powerOnReset
  /-- END_OF_POWER_ON_RESET (R157): RESET_N is deasserted. -/
  | endOfPowerOnReset
  /-- LRST_N_ASSERTED (R171). -/
  | lrstAsserted
  /-- LRST_N_DEASSERTED (R172). -/
  | lrstDeasserted
  /-- END_OF_LOAD (R159): `acknowledged` is false when the EEPROM missed an acknowledge (R158). -/
  | endOfLoad (acknowledged : Bool)
  /-- RECOVERY_READ_COMPLETION (R165). -/
  | recoveryReadCompletion (parityFault : Bool)
  /-- REPLAY_WRITE_COMPLETION (R167). -/
  | replayWriteCompletion
  /-- CLEAR_FLAGS (R179): the item's two bytes. -/
  | clearFlags (mask : BitVec 16)
  /-- ALERT_MASK (R193): the write item's two bytes. -/
  | alertMask (mask : BitVec 16)
  /-- SET_RUNTIME_GUARD (R184): the window index byte and the value byte. -/
  | setRuntimeGuard (index value : Byte)
  /-- LOCK_GUARDS (R185). -/
  | lockGuards
  /-- SET_STORED_GUARD (R188): the window index byte and the value byte. -/
  | setStoredGuard (index value : Byte)
  /-- EEPROM_READ (R187): the byte address. -/
  | eepromRead (addr : Byte)
  /-- EEPROM_WRITE (R187): the byte address and the data byte. -/
  | eepromWrite (addr data : Byte)
  /-- RELOAD (R173). -/
  | reload
  /-- LINK_RESET (R190). -/
  | linkReset
  /-- MANAGEMENT_WRITE_TRANSACTION (R177): every byte after the target address. -/
  | managementWriteTransaction (bytes : List Byte)
  /-- RANDOM_READ_END (R187). -/
  | randomReadEnd
  /-- ACKNOWLEDGE_POLLING_END (R187). -/
  | acknowledgePollingEnd
  /-- MISSING_ACKNOWLEDGE (R187). -/
  | missingAcknowledge
  /-- POLLING_WINDOW_EXPIRY (R187). -/
  | pollingWindowExpiry
  /-- POWER_LOSS (R147). -/
  | powerLoss
  /-- DATA_BYTE_ACKNOWLEDGE (R187). -/
  | dataByteAcknowledge
  deriving DecidableEq, Repr

end Sys2Proof
end

