-- ==== Sys2Proof/Decode.lean ====
section
/-! DEFINITION. The commands that words spell by the opcode table's bits: none, since no row of the table gives bits. -/

namespace Sys2Proof

/-- The command that a word of `nbits` bits spells by spec/opcode_table.json: no row gives bits, so none. -/
def decodeTableWord (_nbits _w : Nat) : Option Instr := none

end Sys2Proof
end

