-- ==== Sys2Proof/Config.lean ====
section
/-! DEFINITION. What an implementation or the devices beside the part decide: the free values (log 8, log 10, log 27).
Nothing in the model or in a proof can see what they are. -/

namespace Sys2Proof

/-- Free value: does a RAM word write that power loss or RESET_N cuts short land whole (R147)?
Argument: how many free values were used before. Log 8. -/
opaque Config.cutWriteLands : Nat → Bool

/-- Free value: does a cell write that the EEPROM had acknowledged finish, when the link no longer polls for it
(R187, R188, R189)? Argument: how many free values were used before. Log 10. -/
opaque Config.cutCellLands : Nat → Bool

/-- Free value: when several holds expire at one tick, the source whose expiry is the first, the others following in
cyclic order of their numbers (R70, R75). Argument: how many free values were used before. Log 27. -/
opaque Config.firstToExpire : Nat → Source

end Sys2Proof
end

