-- ==== Sys2Proof/Machine/State.lean ====
section
/-! DEFINITION. The state of the WG416, block by block, its value right after power-on reset, and the reasons a step
could stop. INVENTORY.md lists every piece with the rule that names it. -/

namespace Sys2Proof.Machine

/-! ### Memory Port and memories -/

/-- Bytes by address, sorted, listing no byte equal to 0, what an unlisted address reads as (log 6, log 9). -/
abbrev Memory := List Host.Cell

/-- The four upstream and engine requesters, which are also the rotation points (R148, R149). -/
inductive Rotor where
  | read | drain | sealer | apply
  deriving DecidableEq, Repr

/-- Who was granted the operation in flight (R148). -/
inductive Requester where
  | rotor (r : Rotor)
  | scanner
  deriving DecidableEq, Repr

/-- A word operation on the RAM (R145, R146). -/
inductive WordOp where
  | read (word : Addr)
  | write (word : Addr) (mask : Mask) (data : Word)
  deriving DecidableEq, Repr

/-- The operation in flight (R144). -/
structure MemOp where
  requester : Requester
  op : WordOp
  deriving DecidableEq, Repr

/-- Port state (R144). -/
inductive PortState where
  | active | quiesced
  deriving DecidableEq, Repr

/-- The Memory Port (R144, R151). -/
structure MemoryPort where
  port : PortState
  inFlight : Option MemOp
  warning : Bool
  rotation : Rotor
  deriving DecidableEq, Repr

/-! ### Request Port -/

/-- Fault codes (R191). -/
inductive FaultCode where
  | align | mask | hidden | guarded | ungrouped | aborted | noGroup | count | conflict | noSpace | unconfigured
  | parity | badMark
  deriving DecidableEq, Repr

/-- An answer (R2, R191). -/
inductive Answer where
  | done (data : Word)
  | retry
  | fault (code : FaultCode)
  deriving DecidableEq, Repr

/-- What the memory bus saw of the Request Port at the latest event: nothing, a request left waiting on the bus (R1),
a READ taken and held (R4), or an answer. -/
inductive BusOut where
  | none
  | waits (src : Source)
  | held (src : Source)
  | answer (src : Source) (ans : Answer)
  deriving DecidableEq, Repr

/-- A READ held in the Request Port (R4, R105). -/
structure HeldRead where
  source : Source
  addr : Addr
  word : Addr
  granted : Bool
  deriving DecidableEq, Repr

/-- The kind of a request as the last-fault record shows it (R6, R182). -/
inductive RequestKind where
  | read | write | openMark | commit | discard | order | flush | mark
  deriving DecidableEq, Repr

/-! ### Window Unit -/

/-- A Window Table entry (R8); `grouped` is mode GROUPED, otherwise DIRECT. -/
structure Window where
  present : Bool
  base : Nat
  limit : Nat
  target : Nat
  grouped : Bool
  loose : Bool
  combine : Bool
  storedGuard : Bool
  pinGuard : Bool
  runtimeGuard : Bool
  deriving DecidableEq, Repr

/-- The journal region in use (R109): byte base and size. -/
structure Region where
  base : Nat
  size : Nat
  deriving DecidableEq, Repr

/-- The result of a Window Unit lookup (R11 to R13). -/
structure Lookup where
  word : Addr
  window : Option WindowId
  grouped : Bool
  loose : Bool
  combine : Bool
  guarded : Bool
  hidden : Bool
  deriving DecidableEq, Repr

/-! ### Group Controller and Staging Pool -/

/-- Slot states (R24, R25). -/
inductive SlotState where
  | free | filling | ready | aborted | queued | sealing | sealed | applying
  deriving DecidableEq, Repr

/-- Abort causes (R39). -/
inductive AbortCause where
  | window | excess | short | nested | guardProtected | conflict
  deriving DecidableEq, Repr

/-- A group slot (R24). A field that the slot's state does not have is absent; its staged entry list stands in the
Staging Pool. -/
structure Slot where
  state : SlotState
  owner : Option Source
  declared : Option Nat
  remaining : Option Nat
  window : Option WindowId
  reservation : Nat
  cause : Option AbortCause
  seqNo : Option Word
  position : Option Nat
  recordSize : Option Nat
  cursor : Option Nat
  deriving DecidableEq, Repr

/-- A staging entry in use (R53). -/
structure StagingEntry where
  slot : SlotId
  word : Addr
  data : Word
  mask : Mask
  position : Nat
  deriving DecidableEq, Repr

/-- The ninety-six entries of the Staging Pool (R53). -/
abbrev Pool := Vector (Option StagingEntry) 96

/-! ### Source Table -/

/-- A held request with the path it took (R72): the cause is CLAIM for a WRITE and SPACE for an OPEN. -/
inductive HeldRequest where
  | loose (addr : Addr)
  | group (addr : Addr)
  | openMark (count : Byte)
  deriving DecidableEq, Repr

/-- A hold record (R72). -/
structure Hold where
  request : HeldRequest
  expired : Bool
  timer : Nat
  deriving DecidableEq, Repr

/-- What a completion record waits for (R78). -/
inductive Notice where
  | commit (slot : SlotId)
  | flush (stamps : List Stamp) (slots : List SlotId)
  deriving DecidableEq, Repr

/-- WAITING, or READY with its collect timer (R78). -/
inductive NoticeStatus where
  | waiting
  | ready (timer : Nat)
  deriving DecidableEq, Repr

/-- A completion record (R78). -/
structure Completion where
  notice : Notice
  status : NoticeStatus
  deriving DecidableEq, Repr

/-- A Source Table entry (R70). -/
structure SourceEntry where
  link : Option SlotId
  hold : Option Hold
  completion : Option Completion
  epoch : Stamp
  deriving DecidableEq, Repr

/-- The Timebase and the two limits (R75, R84, R86). -/
structure Timebase where
  divider : Nat
  count : Nat
  holdLimit : Nat
  collectLimit : Nat
  deriving DecidableEq, Repr

/-! ### Posted Write Queue -/

/-- A posted entry (R91); `writing` is drain state WRITING, otherwise QUEUED. -/
structure PostedEntry where
  source : Source
  word : Addr
  data : Word
  mask : Mask
  epoch : Stamp
  combine : Bool
  stamp : Stamp
  writing : Bool
  deriving DecidableEq, Repr

/-- A seal barrier point (R102). -/
inductive Barrier where
  | met
  | entry (stamp : Stamp)
  deriving DecidableEq, Repr

/-- The Posted Write Queue, head first (R91, R102). -/
structure PostedQueue where
  entries : List PostedEntry
  nextStamp : Stamp
  barriers : Vector (Option Barrier) 4
  deriving DecidableEq, Repr

/-! ### Journal Engine and Apply Engine -/

/-- The Journal Engine (R110, R111, R118, R120). `sealWrites` holds the words of the seal in progress whose writes have
not completed, in the order of R124 (log 21). -/
structure Journal where
  head : Nat
  tail : Nat
  fill : Nat
  seqCounter : Word
  commitQueue : List SlotId
  ringWait : Bool
  sealWrites : List (Addr × Word)
  deriving DecidableEq, Repr

/-- Phases of the Apply Engine (R130). -/
inductive Phase where
  | home | retire
  deriving DecidableEq, Repr

/-- The Apply Engine (R130); the cursor stands in the slot. -/
structure Apply where
  queue : List SlotId
  applying : Option (SlotId × Phase)
  deriving DecidableEq, Repr

/-! ### Start-up Controller and Recovery Scanner -/

/-- Whether the part has power, and whether power-on reset is in force (R157). -/
inductive Power where
  | off | inReset | up
  deriving DecidableEq, Repr

/-- Operating states (R155). -/
inductive OperatingState where
  | loading | unconfigured | recovering | running | reloading
  deriving DecidableEq, Repr

/-- The chosen record (R164). -/
structure ChosenRecord where
  offset : Nat
  seqNo : Word
  count : Nat
  origin : Word
  entries : List (Word × Word)
  deriving DecidableEq, Repr

/-- What the Recovery Scanner is doing: nothing, reading the ring, or replaying the chosen record with these entries
still to be written (the first one next) and then its header (R165, R167). -/
inductive ScanActivity where
  | idle
  | scanning
  | replaying (rest : List (Word × Word))
  deriving DecidableEq, Repr

/-- The Recovery Scanner (R164). -/
structure Scanner where
  activity : ScanActivity
  pass : Nat
  offset : Nat
  buffer : List Word
  chosen : Option ChosenRecord
  highest : Option Word
  damage : Bool
  deriving DecidableEq, Repr

/-! ### Configuration Link -/

/-- One EEPROM byte write: address and data phases not yet acknowledged, or polling for so many ticks (R187). -/
inductive ByteWrite where
  | sending
  | polling (ticks : Nat)
  deriving DecidableEq, Repr

/-- The operation of the Configuration Link in progress (R187, R188). -/
inductive LinkOp where
  | read (addr : Byte)
  | write (addr data : Byte) (phase : ByteWrite)
  /-- Step 1, the flags byte. -/
  | guardReadFlags (window : WindowId) (value : Bool)
  /-- Step 1, the check byte; the flags byte has been read. -/
  | guardReadCheck (window : WindowId) (value : Bool) (flags : Byte)
  /-- Step 3, with the bytes that step 2 formed. -/
  | guardWriteFlags (window : WindowId) (value : Bool) (flags check : Byte) (phase : ByteWrite)
  /-- Step 4. -/
  | guardWriteCheck (window : WindowId) (value : Bool) (check : Byte) (phase : ByteWrite)
  deriving DecidableEq, Repr

/-- The Configuration Link outside the load (R186); the busy flag is that an operation is in progress. -/
structure ConfigLink where
  op : Option LinkOp
  error : Bool
  result : Byte
  deriving DecidableEq, Repr

/-! ### Management Link -/

/-- The nine event flags (R179). -/
inductive Flag where
  | cfgError | recoveryDamage | holdExpired | collectExpired | groupAborted | guardRefused | parity | powerWarn
  | ringWait
  deriving DecidableEq, Repr

/-- The ten counters (R181). -/
inductive Counter where
  | sealedGroups | abortedGroups | discardedGroups | replayedRecords | tornCandidates | holdExpiries
  | abandonedNotices | guardRefusals | parityFaults | ringWaits
  deriving DecidableEq, Repr

/-- The management items (R178, spec/12 section 12.4). -/
inductive Item where
  | status | flags | clearFlags | alertMask
  | counter (c : Counter)
  | lastFault | lastEnd | setRuntimeGuard | lockGuards | setStoredGuard | eepromRead | eepromWrite | eepromResult
  | reload | linkReset
  deriving DecidableEq, Repr

/-- Item results (R178). -/
inductive ItemResult where
  | ok | busy | locked | range | short | unknown
  deriving DecidableEq, Repr

/-- The last-fault record (R182). -/
structure FaultRecord where
  source : Source
  kind : RequestKind
  addr : Addr
  code : FaultCode
  deriving DecidableEq, Repr

/-- Outcome, cause field and sequence number of the last-end record (R183). -/
inductive EndOutcome where
  | sealed (seqNo : Word)
  | replayed (seqNo : Word)
  | discarded (reason : Byte)
  | discardedReset
  | aborted (cause : AbortCause)
  deriving DecidableEq, Repr

/-- The last-end record (R183). -/
structure EndRecord where
  slot : SlotId
  source : Source
  outcome : EndOutcome
  deriving DecidableEq, Repr

/-- The Management Link block (R177 to R185). A record that is `none` holds the indication EMPTY. -/
structure Management where
  selected : Item
  result : ItemResult
  flags : BitVec 9
  alertMask : BitVec 9
  counters : Vector Word 10
  lastFault : Option FaultRecord
  lastEnd : Option EndRecord
  guardLock : Bool
  deriving DecidableEq, Repr

/-- The input lines (spec/00, Lines): `true` when asserted. `guard` is GUARD_N as last sampled (log 4). -/
structure Lines where
  lrst : Bool
  pfail : Bool
  guard : Bool
  straps : BitVec 2
  deriving DecidableEq, Repr

/-! ### The whole part -/

/-- The WG416, the RAM and EEPROM beside it, and the commands that wait. -/
structure State where
  /-- The commands that wait, first in first out. -/
  pending : List Instr
  bus : BusOut
  lines : Lines
  power : Power
  op : OperatingState
  /-- RELOAD has ended its drain and cleared the runtime guards, and waits for the Configuration Link (R175). -/
  guardsCleared : Bool
  held : Option HeldRead
  windows : Vector Window 8
  region : Option Region
  slots : Vector Slot 4
  pool : Pool
  sources : Vector SourceEntry 16
  time : Timebase
  posted : PostedQueue
  journal : Journal
  apply : Apply
  mp : MemoryPort
  scanner : Scanner
  cl : ConfigLink
  ml : Management
  mem : Memory
  eeprom : Memory
  /-- The model's own: how many free values have been used (log 8). -/
  freeCount : Nat
  deriving DecidableEq, Repr

/-- A FREE slot: every field but its state absent (R27, R47). -/
def Slot.empty : Slot :=
  { state := .free, owner := none, declared := none, remaining := none, window := none, reservation := 0,
    cause := none, seqNo := none, position := none, recordSize := none, cursor := none }

/-- A Window Table entry at power-on reset (R9; the fields beside `present` and the runtime guard: log 15). -/
def Window.empty : Window :=
  { present := false, base := 0, limit := 0, target := 0, grouped := false, loose := false, combine := false,
    storedGuard := false, pinGuard := false, runtimeGuard := false }

/-- A Source Table entry at power-on reset (R70). -/
def SourceEntry.empty : SourceEntry := { link := none, hold := none, completion := none, epoch := 0 }

/-- The Recovery Scanner, idle and cleared (R157, R164). -/
def Scanner.idle : Scanner :=
  { activity := .idle, pass := 0, offset := 0, buffer := [], chosen := none, highest := none, damage := false }

/-- The machine right after power-on reset, the reset still in force (R157; log 14, log 15 for what R157 leaves). -/
def State.reset : State where
  pending := []
  bus := .none
  lines := { lrst := false, pfail := false, guard := false, straps := 0 }
  power := .inReset
  op := .loading
  guardsCleared := false
  held := none
  windows := Vector.replicate 8 Window.empty
  region := none
  slots := Vector.replicate 4 Slot.empty
  pool := Vector.replicate 96 none
  sources := Vector.replicate 16 SourceEntry.empty
  time := { divider := 1, count := 0, holdLimit := 65535, collectLimit := 65535 }
  posted := { entries := [], nextStamp := 0, barriers := Vector.replicate 4 none }
  journal := { head := 0, tail := 0, fill := 0, seqCounter := 1, commitQueue := [], ringWait := false,
               sealWrites := [] }
  apply := { queue := [], applying := none }
  mp := { port := .active, inFlight := none, warning := false, rotation := .read }
  scanner := Scanner.idle
  cl := { op := none, error := false, result := 0 }
  ml := { selected := .status, result := .ok, flags := 0, alertMask := 0, counters := Vector.replicate 10 0,
          lastFault := none, lastEnd := none, guardLock := false }
  mem := []
  eeprom := []
  freeCount := 0

/-- Faults of a step. No command of this block stops the machine: a FAULT answer is a next state. -/
inductive Fault where
  /-- Raised by nobody; safe. It stands here so that the interface's outcome `fault` has a reason to name. -/
  | neverRaised
  deriving DecidableEq, Repr

/-- Refusals of a step. -/
inductive Refusal where
  /-- Raised by an arm of `exec` whose command has no meaning yet (there is none now); safe. -/
  | notModelled (mnemonic : String)
  deriving DecidableEq, Repr

end Sys2Proof.Machine
end

