-- ==== Sys2Proof/Machine/Operands.lean ====
section
/-! DEFINITION. Byte lanes and masks, the bytes of the two memories, and the layouts and codes of spec/12: answers,
journal words, management items. -/

namespace Sys2Proof.Machine

/-! ### Byte lanes -/

/-- Byte lane `k` of a word: bits `8k+7` to `8k` (spec/12). -/
def lane (w : Word) (k : Fin 4) : Byte := w.extractLsb' (8 * k.val) 8

/-- The word with these four lanes. -/
def ofLanes (f : Fin 4 → Byte) : Word := f 3 ++ f 2 ++ f 1 ++ f 0

/-- `new` in the lanes of the mask, `old` in the others (R58, R94, R106, R146). -/
def mergeLanes (old new : Word) (m : Mask) : Word :=
  ofLanes fun k => if m.getLsbD k.val then lane new k else lane old k

/-- The data of a write in the lanes of its mask, 0 in the others (R57, R92). -/
def maskedData (data : Word) (m : Mask) : Word := mergeLanes 0 data m

/-- The mask of all four lanes. -/
def allLanes : Mask := 15

/-! ### Bytes of a memory -/

/-- The byte at an address; an unlisted address reads as 0 (log 6, log 9). -/
def Memory.get : Memory → Nat → Byte
  | [], _ => 0
  | (b, v) :: m, a => if b = a then v else Memory.get m a

/-- The memory with one byte written, in canonical form: sorted, and 0 unlisted. -/
def Memory.set : Memory → Nat → Byte → Memory
  | [], a, v => if v = 0 then [] else [(a, v)]
  | (b, w) :: m, a, v =>
    if a < b then (if v = 0 then (b, w) :: m else (a, v) :: (b, w) :: m)
    else if a = b then (if v = 0 then m else (a, v) :: m)
    else (b, w) :: Memory.set m a v

/-- Canonical form from address `lo` on: addresses strictly rising, no listed 0. -/
def Memory.wfFrom : Nat → Memory → Bool
  | _, [] => true
  | lo, (a, v) :: m => decide (lo ≤ a) && decide (v ≠ 0) && Memory.wfFrom (a + 1) m

/-- Canonical form of a memory. -/
def Memory.wf (m : Memory) : Bool := Memory.wfFrom 0 m

/-- The byte address of lane `k` of the word that `w` lies in (log 7). -/
def laneAddr (w : Addr) (k : Fin 4) : Nat := 4 * (w.toNat / 4) + k.val

/-- A word read (R145). -/
def Memory.readWord (m : Memory) (w : Addr) : Word := ofLanes fun k => m.get (laneAddr w k)

/-- One lane of a masked word write. -/
def Memory.writeLane (m : Memory) (w : Addr) (mask : Mask) (data : Word) (k : Fin 4) : Memory :=
  if mask.getLsbD k.val then m.set (laneAddr w k) (lane data k) else m

/-- A masked word write (R146): the lanes outside the mask keep what memory holds. -/
def Memory.writeWord (m : Memory) (w : Addr) (mask : Mask) (data : Word) : Memory :=
  (((m.writeLane w mask data 0).writeLane w mask data 1).writeLane w mask data 2).writeLane w mask data 3

/-! ### Codes -/

/-- Fault codes (R191). -/
def FaultCode.toByte : FaultCode → Byte
  | .align => 1 | .mask => 2 | .hidden => 3 | .guarded => 4 | .ungrouped => 5 | .aborted => 6 | .noGroup => 7
  | .count => 8 | .conflict => 9 | .noSpace => 10 | .unconfigured => 11 | .parity => 12 | .badMark => 13

/-- Abort cause codes (R191). -/
def AbortCause.toByte : AbortCause → Byte
  | .window => 1 | .excess => 2 | .short => 3 | .nested => 4 | .guardProtected => 5 | .conflict => 6

/-- A word with one byte in lane 0 and 0 in the others. -/
def lane0 (b : Byte) : Word := b.setWidth 32

/-- The 32-bit data field of an answer (R191). -/
def Answer.dataField : Answer → Word
  | .done data => data
  | .retry => 0
  | .fault code => lane0 code.toByte

/-- The kind byte of LAST-FAULT (spec/12 section 12.4). -/
def RequestKind.toByte : RequestKind → Byte
  | .read => 1 | .write => 2 | .openMark => 3 | .commit => 4 | .discard => 5 | .order => 6 | .flush => 7 | .mark => 8

/-- The state byte of a slot in STATUS (spec/12 section 12.4). -/
def SlotState.toByte : SlotState → Byte
  | .free => 0 | .filling => 1 | .ready => 2 | .aborted => 3 | .queued => 4 | .sealing => 5 | .sealed => 6
  | .applying => 7

/-- The operating state byte of STATUS (spec/12 section 12.4). -/
def OperatingState.toByte : OperatingState → Byte
  | .loading => 0 | .unconfigured => 1 | .recovering => 2 | .running => 3 | .reloading => 4

/-- The item result byte (spec/12 section 12.4). -/
def ItemResult.toByte : ItemResult → Byte
  | .ok => 0 | .busy => 1 | .locked => 2 | .range => 3 | .short => 4 | .unknown => 5

/-- Flag bits (spec/12 section 12.4). -/
def Flag.bit : Flag → Fin 9
  | .cfgError => 0 | .recoveryDamage => 1 | .holdExpired => 2 | .collectExpired => 3 | .groupAborted => 4
  | .guardRefused => 5 | .parity => 6 | .powerWarn => 7 | .ringWait => 8

/-- Counters in the order of items 0x10 to 0x19 (spec/12 section 12.4). -/
def Counter.index : Counter → Fin 10
  | .sealedGroups => 0 | .abortedGroups => 1 | .discardedGroups => 2 | .replayedRecords => 3 | .tornCandidates => 4
  | .holdExpiries => 5 | .abandonedNotices => 6 | .guardRefusals => 7 | .parityFaults => 8 | .ringWaits => 9

/-! ### Management items -/

/-- The item that a number names (spec/12 section 12.4). -/
def Item.ofNumber (n : Byte) : Option Item :=
  match n.toNat with
  | 0x00 => some .status
  | 0x01 => some .flags
  | 0x02 => some .clearFlags
  | 0x03 => some .alertMask
  | 0x10 => some (.counter .sealedGroups)
  | 0x11 => some (.counter .abortedGroups)
  | 0x12 => some (.counter .discardedGroups)
  | 0x13 => some (.counter .replayedRecords)
  | 0x14 => some (.counter .tornCandidates)
  | 0x15 => some (.counter .holdExpiries)
  | 0x16 => some (.counter .abandonedNotices)
  | 0x17 => some (.counter .guardRefusals)
  | 0x18 => some (.counter .parityFaults)
  | 0x19 => some (.counter .ringWaits)
  | 0x20 => some .lastFault
  | 0x21 => some .lastEnd
  | 0x30 => some .setRuntimeGuard
  | 0x31 => some .lockGuards
  | 0x32 => some .setStoredGuard
  | 0x40 => some .eepromRead
  | 0x41 => some .eepromWrite
  | 0x42 => some .eepromResult
  | 0x50 => some .reload
  | 0x51 => some .linkReset
  | _ => none

/-- The number of further bytes of a command item, `none` for an item that is only read (spec/12 section 12.4). -/
def Item.commandLength : Item → Option Nat
  | .clearFlags => some 2
  | .alertMask => some 2
  | .setRuntimeGuard => some 2
  | .lockGuards => some 0
  | .setStoredGuard => some 2
  | .eepromRead => some 1
  | .eepromWrite => some 2
  | .reload => some 0
  | .linkReset => some 0
  | .status | .flags | .counter _ | .lastFault | .lastEnd | .eepromResult => none

/-- Two bytes of an item, low byte first (spec/12). -/
def twoBytes (low high : Byte) : BitVec 16 := high ++ low

/-- The window index that an item's byte names, if in range (R178). -/
def windowIndex (b : Byte) : Option WindowId := if h : b.toNat < 8 then some ⟨b.toNat, h⟩ else none

/-- The guard value that an item's byte names: 0 off, 1 on (spec/12 section 12.4). -/
def guardValue (b : Byte) : Option Bool := if b = 0 then some false else if b = 1 then some true else none

/-! ### Journal words (spec/12 section 12.2) -/

/-- The state byte of a header. -/
def liveByte : Byte := 0x01
/-- The state byte of a retired record's header. -/
def retiredByte : Byte := 0x02
/-- The state byte of a pad's header. -/
def padByte : Byte := 0x03

/-- The record marker, bits 31 to 16 of a header. -/
def recordMarker : BitVec 16 := 0xA5C3

/-- A header word: marker, state, entry count or pad length. -/
def headerWord (state : Byte) (count : Nat) : Word := recordMarker ++ state ++ BitVec.ofNat 8 count

/-- Bits 31 to 16 of a header. -/
def headerMarker (w : Word) : BitVec 16 := w.extractLsb' 16 16
/-- The state byte of a header. -/
def headerState (w : Word) : Byte := w.extractLsb' 8 8
/-- The entry count of a header. -/
def headerCount (w : Word) : Nat := (w.extractLsb' 0 8).toNat
/-- The header with its state taken as LIVE (R114). -/
def headerAsLive (w : Word) : Word := (w.extractLsb' 16 16) ++ liveByte ++ (w.extractLsb' 0 8)

/-- The origin word: declared count, window index, slot, owner source. -/
def originWord (declared : Nat) (window : Nat) (slot : SlotId) (owner : Source) : Word :=
  BitVec.ofNat 8 declared ++ BitVec.ofNat 8 window ++ BitVec.ofNat 8 slot.val ++ BitVec.ofNat 8 owner.val

/-- The slot in bits 9 and 8 of an origin word (R167). -/
def originSlot (w : Word) : SlotId := (w.extractLsb' 8 2).toFin
/-- The source in bits 3 to 0 of an origin word (R167). -/
def originSource (w : Word) : Source := (w.extractLsb' 0 4).toFin

/-- An entry address word: mask in bits 31 to 28, memory word in bits 23 to 0 (bits 1 and 0 zero). -/
def entryAddrWord (mask : Mask) (word : Addr) : Word := mask ++ (0 : BitVec 4) ++ word.extractLsb' 2 22 ++ (0 : BitVec 2)

/-- The mask of an entry address word. -/
def entryMask (w : Word) : Mask := w.extractLsb' 28 4
/-- The memory word of an entry address word: bits 23 to 2, the others disregarded (R167). -/
def entryWord (w : Word) : Addr := w.extractLsb' 2 22 ++ (0 : BitVec 2)

/-- The sum of words modulo 2 to the power 32 (R114). -/
def sumWords (ws : List Word) : Word := ws.foldl (· + ·) 0

/-- The check word over the words before it (R114). -/
def checkWord (ws : List Word) : Word := ~~~ sumWords ws

/-- The placement size of a record of `e` entries: 20 + 8e bytes rounded up to a multiple of 16 (R113). -/
def placementSize (e : Nat) : Nat := (20 + 8 * e + 15) / 16 * 16

/-- The words of a candidate in the buffer: `some` when `ws` is a whole record that passes the check and the seal
test, with the header taken as LIVE (R112, R114, R165). -/
def recordValid (e : Nat) (ws : List Word) : Bool :=
  decide (ws.length = 5 + 2 * e) &&
    decide (ws.getD (3 + 2 * e) 0 = checkWord (headerAsLive (ws.getD 0 0) :: (ws.take (3 + 2 * e)).drop 1)) &&
    decide (ws.getD (4 + 2 * e) 0 = ~~~ ws.getD 1 0)

/-- The entries of a record's words, address word and data word, in record order (R112). -/
def recordEntries (e : Nat) (ws : List Word) : List (Word × Word) :=
  (List.range e).map fun k => (ws.getD (3 + 2 * k) 0, ws.getD (4 + 2 * k) 0)

end Sys2Proof.Machine
end

