-- ==== Sys2Proof/Machine/Flags.lean ====
section
/-! DEFINITION. Event flags, the ALERT line and READY, counters, and the two diagnostic records (spec/10, section 10.2
and 10.3; R156). -/

namespace Sys2Proof.Machine

/-- Is a flag set? -/
def State.flag (s : State) (f : Flag) : Bool := s.ml.flags.getLsbD f.bit.val

/-- Set a flag (R179). -/
def State.setFlag (s : State) (f : Flag) : State :=
  { s with ml := { s.ml with flags := s.ml.flags ||| BitVec.twoPow 9 f.bit.val } }

/-- Clear the flags of a mask (R179); bits 15 to 9 are disregarded. -/
def State.clearFlagBits (s : State) (mask : BitVec 16) : State :=
  { s with ml := { s.ml with flags := s.ml.flags &&& ~~~ (mask.setWidth 9) } }

/-- The value of a counter (R181). -/
def State.counter (s : State) (c : Counter) : Word := s.ml.counters[c.index]

/-- One more, stopping at 4,294,967,295 (R181). -/
def saturatingSucc (n : Word) : Word := if n = BitVec.allOnes 32 then n else n + 1

/-- Advance a counter by one (R181). -/
def State.count (s : State) (c : Counter) : State :=
  { s with ml := { s.ml with counters := s.ml.counters.set c.index (saturatingSucc s.ml.counters[c.index]) } }

/-- ALERT_N is asserted: some flag is set whose bit is set in the alert mask; never while power-on reset is in force
or without power (R180). -/
def State.alert (s : State) : Bool := decide (s.power = .up) && decide (s.ml.flags &&& s.ml.alertMask ≠ 0)

/-- READY is high (R156). -/
def State.ready (s : State) : Bool := decide (s.power = .up) && decide (s.op = .running)

/-- Replace the last-end record (R183). -/
def State.recordEnd (s : State) (slot : SlotId) (source : Source) (outcome : EndOutcome) : State :=
  { s with ml := { s.ml with lastEnd := some { slot, source, outcome } } }

/-- Replace the last-fault record (R6, R182). -/
def State.recordFault (s : State) (source : Source) (kind : RequestKind) (addr : Addr) (code : FaultCode) : State :=
  { s with ml := { s.ml with lastFault := some { source, kind, addr, code } } }

/-- A guard refusal is counted and flagged (R22). -/
def State.noteGuardRefusal (s : State) : State := (s.count .guardRefusals).setFlag .guardRefused

end Sys2Proof.Machine
end

