-- ==== Sys2Proof/Machine/WindowUnit.lean ====
section
/-! DEFINITION. The Window Unit: lookup, translation, hidden words and guards (R8 to R18). -/

namespace Sys2Proof.Machine

/-- The upstream range of a present window contains the page (R8, R11). -/
def Window.contains (w : Window) (page : Nat) : Bool :=
  w.present && decide (w.base ≤ page) && decide (page ≤ w.limit)

/-- The target range of a present window contains the memory page (R8). -/
def Window.targets (w : Window) (page : Nat) : Bool :=
  w.present && decide (w.target ≤ page) && decide (page ≤ w.target + (w.limit - w.base))

/-- The effective guard of a window, GUARD_N being at this level (R18). -/
def Window.guarded (w : Window) (guardLine : Bool) : Bool :=
  w.storedGuard || w.runtimeGuard || (w.pinGuard && guardLine)

/-- The byte address lies in the journal region. -/
def Region.contains (r : Region) (a : Nat) : Bool := decide (r.base ≤ a) && decide (a < r.base + r.size)

/-- The byte address lies in the journal region in use (R109). -/
def State.inRegion (s : State) (a : Nat) : Bool :=
  match s.region with
  | none => false
  | some r => r.contains a

/-- The window whose upstream range contains the page (R11). -/
def State.findWindow (s : State) (page : Nat) : Option WindowId :=
  (List.finRange 8).find? fun i => s.windows[i].contains page

/-- The memory page lies in some window's target range (R13, shadowed). -/
def State.shadowed (s : State) (page : Nat) : Bool :=
  (List.finRange 8).any fun i => s.windows[i].targets page

/-- The memory address of an upstream address in window `w` (R11). -/
def Window.translate (w : Window) (a : Addr) : Addr :=
  BitVec.ofNat 24 (a.toNat - 4096 * w.base + 4096 * w.target)

/-- The lookup of an upstream address, with GUARD_N as last sampled (R11 to R13, R18). -/
def State.lookup (s : State) (a : Addr) : Lookup :=
  match s.findWindow (a.toNat / 4096) with
  | some i =>
    let w := s.windows[i]
    { word := w.translate a, window := some i, grouped := w.grouped, loose := w.loose, combine := w.combine,
      guarded := w.guarded s.lines.guard, hidden := false }
  | none =>
    { word := a, window := none, grouped := false, loose := true, combine := false, guarded := false,
      hidden := s.inRegion a.toNat || s.shadowed (a.toNat / 4096) }

/-- The effective guard of a window named by index (R18, R44). -/
def State.windowGuarded (s : State) (i : WindowId) : Bool := s.windows[i].guarded s.lines.guard

/-- GUARD_N is sampled at an evaluation (R18, R23; log 4). -/
def State.sampleGuard (s : State) (level : Bool) : State := { s with lines := { s.lines with guard := level } }

/-- Every runtime guard off (R9, R175). -/
def State.clearRuntimeGuards (s : State) : State :=
  { s with windows := Vector.ofFn fun i => { s.windows[i] with runtimeGuard := false } }

end Sys2Proof.Machine
end

