-- ==== Sys2Proof/Machine/Ops.lean ====
section
/-! DEFINITION. The operations that the commands share: slots, Staging Pool, Source Table, answers of the Request Port,
abort, the Memory Port's grant and quiesce, the ring-space wait, the end of RELOAD's wait, link reset, and the resets of
power. -/

namespace Sys2Proof.Machine

/-! ### Tables -/

/-- The slots in ascending number. -/
def allSlots : List SlotId := [0, 1, 2, 3]

/-- Slot `k`. -/
def State.slot (s : State) (k : SlotId) : Slot := s.slots[k]

/-- Replace slot `k`. -/
def State.setSlot (s : State) (k : SlotId) (x : Slot) : State := { s with slots := s.slots.set k x }

/-- The Source Table entry of a source. -/
def State.source (s : State) (i : Source) : SourceEntry := s.sources[i]

/-- Replace the Source Table entry of a source. -/
def State.setSource (s : State) (i : Source) (e : SourceEntry) : State := { s with sources := s.sources.set i e }

/-- The same change in every Source Table entry. -/
def State.mapSources (s : State) (f : Source → SourceEntry → SourceEntry) : State :=
  { s with sources := Vector.ofFn fun i => f i s.sources[i] }

/-- The same change in every posted entry. -/
def State.mapPosted (s : State) (f : PostedEntry → PostedEntry) : State :=
  { s with posted := { s.posted with entries := s.posted.entries.map f } }

/-- Set or drop a slot's seal barrier point (R102). -/
def State.setBarrier (s : State) (k : SlotId) (b : Option Barrier) : State :=
  { s with posted := { s.posted with barriers := s.posted.barriers.set k b } }

/-! ### Staging Pool (R53 to R69) -/

/-- The entry belongs to slot `k`. -/
def ownedBy (k : SlotId) (e : Option StagingEntry) : Bool :=
  match e with
  | none => false
  | some e => decide (e.slot = k)

/-- The length of a slot's staged entry list. -/
def State.slotLen (s : State) (k : SlotId) : Nat := s.pool.toList.countP (ownedBy k)

/-- The entries in use. -/
def State.poolUsed (s : State) : Nat := s.pool.toList.countP Option.isSome

/-- A slot's unused reservation (R24). -/
def State.unusedReservation (s : State) (k : SlotId) : Nat := (s.slot k).reservation - s.slotLen k

/-- The unreserved entries (R30, R55). -/
def State.unreserved (s : State) : Nat := 96 - s.poolUsed - (allSlots.map s.unusedReservation).sum

/-- The entry at a list position of a slot. -/
def State.entryAt (s : State) (k : SlotId) (position : Nat) : Option StagingEntry :=
  s.pool.toList.findSome? fun e =>
    match e with
    | none => none
    | some e => if e.slot = k ∧ e.position = position then some e else none

/-- A slot's staged entry list, in list order (R53, R59). -/
def State.stagedList (s : State) (k : SlotId) : List StagingEntry := (List.range 32).filterMap (s.entryAt k)

/-- The claim lookup (R61): the entry that claims a memory word. -/
def State.claimOf (s : State) (word : Addr) : Option StagingEntry :=
  s.pool.toList.findSome? fun e =>
    match e with
    | none => none
    | some e => if e.word = word then some e else none

/-- The lowest-numbered free entry (R53). -/
def State.freeEntry (s : State) : Option (Fin 96) := (List.finRange 96).find? fun i => s.pool[i].isNone

/-- Free every entry of a slot (R66 to R68). -/
def State.releaseEntries (s : State) (k : SlotId) : State :=
  { s with pool := Vector.ofFn fun i => if ownedBy k s.pool[i] then none else s.pool[i] }

/-- A new entry at the end of a slot's list (R57). -/
def State.stageNew (s : State) (k : SlotId) (word : Addr) (mask : Mask) (data : Word) : State :=
  match s.freeEntry with
  | none => s
  | some i =>
    { s with pool := s.pool.set i (some { slot := k, word, data := maskedData data mask, mask,
                                          position := s.slotLen k }) }

/-- A write merged into the slot's entry for the word (R58). -/
def mergeEntry (k : SlotId) (word : Addr) (mask : Mask) (data : Word) (e : StagingEntry) : StagingEntry :=
  if e.slot = k ∧ e.word = word then { e with data := mergeLanes e.data data mask, mask := e.mask ||| mask } else e

/-- Merge a write into the slot's entry for the word (R58). -/
def State.stageMerge (s : State) (k : SlotId) (word : Addr) (mask : Mask) (data : Word) : State :=
  { s with pool := Vector.ofFn fun i => s.pool[i].map (mergeEntry k word mask data) }

/-- Stage a write whose word is unclaimed or claimed by slot `k` (R57, R58). -/
def State.stage (s : State) (k : SlotId) (word : Addr) (mask : Mask) (data : Word) : State :=
  match s.claimOf word with
  | none => s.stageNew k word mask data
  | some _ => s.stageMerge k word mask data

/-! ### Answers and the taking of a request (R1 to R6) -/

/-- Nothing shown to the memory bus at this event so far. -/
def State.quiet (s : State) : State := { s with bus := .none }

/-- Answer a request (R2). -/
def State.reply (s : State) (src : Source) (ans : Answer) : State := { s with bus := .answer src ans }

/-- Answer FAULT and replace the last-fault record (R6). -/
def State.replyFault (s : State) (src : Source) (kind : RequestKind) (addr : Addr) (code : FaultCode) : State :=
  (s.recordFault src kind addr code).reply src (.fault code)

/-- The Request Port takes no request now (R1): reset, LRST_N, a held READ, or a WRITE to a full queue. -/
def State.busWaits (s : State) (isWrite : Bool) : Bool :=
  decide (s.power ≠ .up) || s.lines.lrst || s.held.isSome ||
    (isWrite && decide (16 ≤ s.posted.entries.length))

/-- A request reaches the Request Port: left on the bus (R1), answered by quiesce or operating state (R3), or judged. -/
def State.request (s : State) (src : Source) (kind : RequestKind) (addr : Addr) (judge : State → State) : State :=
  if s.busWaits (decide (kind = .write)) then { s with bus := .waits src }
  else if s.mp.port = .quiesced then s.reply src .retry
  else
    match s.op with
    | .loading | .recovering | .reloading => s.reply src .retry
    | .unconfigured => s.replyFault src kind addr .unconfigured
    | .running => judge s

/-! ### Hold and completion records (R71 to R83) -/

/-- Clear a source's hold record. -/
def State.clearHold (s : State) (src : Source) : State := s.setSource src { s.source src with hold := none }

/-- The held request is a WRITE to this upstream address (R71). -/
def HeldRequest.isWriteTo (addr : Addr) : HeldRequest → Bool
  | .loose a => decide (a = addr)
  | .group a => decide (a = addr)
  | .openMark _ => false

/-- The held request is an OPEN of this count (R71). -/
def HeldRequest.isOpenOf (count : Byte) : HeldRequest → Bool
  | .loose _ => false
  | .group _ => false
  | .openMark n => decide (n = count)

/-- At an arrival, a different request clears the hold record (R71). -/
def State.compareHold (s : State) (src : Source) (same : HeldRequest → Bool) : State :=
  match (s.source src).hold with
  | none => s
  | some h => if same h.request then s else s.clearHold src

/-- The source's hold record has status EXPIRED. -/
def State.holdExpired (s : State) (src : Source) : Bool :=
  match (s.source src).hold with
  | none => false
  | some h => h.expired

/-- Hold a request (R72), keeping the record and its timer when the source has one (R74), and answer RETRY. -/
def State.holdRequest (s : State) (src : Source) (request : HeldRequest) : State :=
  match (s.source src).hold with
  | none => (s.setSource src { s.source src with hold := some { request, expired := false, timer := 0 } }).reply src .retry
  | some _ => s.reply src .retry

/-- A check refuses the request: the hold record is cleared and the answer is FAULT (R5, R20, R74, R77). -/
def State.refuse (s : State) (src : Source) (kind : RequestKind) (addr : Addr) (code : FaultCode) : State :=
  (s.clearHold src).replyFault src kind addr code

/-- Abandon the source's completion record, if it has one (R83). -/
def State.abandon (s : State) (src : Source) : State :=
  match (s.source src).completion with
  | none => s
  | some _ => (s.setSource src { s.source src with completion := none }).count .abandonedNotices

/-- Give the source a completion record. -/
def State.setCompletion (s : State) (src : Source) (c : Option Completion) : State :=
  s.setSource src { s.source src with completion := c }

/-- Set or clear the source's group link (R26). -/
def State.setLink (s : State) (src : Source) (k : Option SlotId) : State :=
  s.setSource src { s.source src with link := k }

/-- A FLUSH wait set keeps only these members; the record becomes READY when none is left (R81). -/
def Completion.keepMembers (keepStamp : Stamp → Bool) (keepSlot : SlotId → Bool) (c : Completion) : Completion :=
  match c.notice, c.status with
  | .flush stamps slots, .waiting =>
    { notice := .flush (stamps.filter keepStamp) (slots.filter keepSlot),
      status := if stamps.filter keepStamp = [] ∧ slots.filter keepSlot = [] then .ready 0 else .waiting }
  | _, _ => c

/-- A posted entry or a slot leaves every FLUSH wait set (R81, R101). -/
def State.leaveWaitSets (s : State) (keepStamp : Stamp → Bool) (keepSlot : SlotId → Bool) : State :=
  s.mapSources fun _ e => { e with completion := e.completion.map (Completion.keepMembers keepStamp keepSlot) }

/-! ### Groups (R39, R40, R47) -/

/-- Abort a group (R39) and report it (R40, R22). The source's link stays. -/
def State.abortGroup (s : State) (k : SlotId) (cause : AbortCause) : State :=
  let owner := (s.slot k).owner
  let s := (s.releaseEntries k).setSlot k { Slot.empty with state := .aborted, owner, cause := some cause }
  let s := ((s.count .abortedGroups).setFlag .groupAborted).recordEnd k (owner.getD 0) (.aborted cause)
  if cause = .guardProtected then s.noteGuardRefusal else s

/-- Free a slot with its entries, reservation and claims (R47, R50, R135). -/
def State.freeSlot (s : State) (k : SlotId) : State := (s.releaseEntries k).setSlot k Slot.empty

/-- The slot in SEALING, if any (R121). -/
def State.sealingSlot (s : State) : Option SlotId := allSlots.find? fun k => decide ((s.slot k).state = .sealing)

/-- The Apply Engine takes the head of the Apply Queue when no slot is APPLYING (R132). -/
def State.takeApplyHead (s : State) : State :=
  match s.apply.applying, s.apply.queue with
  | none, k :: rest =>
    { s with apply := { queue := rest, applying := some (k, .home) } }.setSlot k
      { s.slot k with state := .applying, cursor := some 0 }
  | _, _ => s

/-! ### Ring space (R117, R118, R122) -/

/-- The sequence condition (R122). -/
def State.sequenceReady (s : State) : Bool :=
  decide (s.journal.seqCounter ≠ BitVec.allOnes 32) || (decide (s.apply.queue = []) && s.apply.applying.isNone)

/-- Bytes of pad that a placement of `size` bytes needs (R116): the bytes left before the ring end, if too few. -/
def State.padBytes (s : State) (r : Region) (size : Nat) : Nat :=
  if r.size - s.journal.head < size then r.size - s.journal.head else 0

/-- The space condition for a slot's record (R117). -/
def State.spaceReady (s : State) (k : SlotId) : Bool :=
  match s.region with
  | none => false
  | some r =>
    decide (s.journal.fill + s.padBytes r (placementSize (s.slotLen k)) + placementSize (s.slotLen k) ≤ r.size)

/-- Conditions 2 to 6 of R121 for the slot at the head of the Commit Queue. -/
def State.sealReadyButSpace (s : State) (k : SlotId) : Bool :=
  decide (s.power = .up) && s.sealingSlot.isNone && (decide (s.op = .running) || decide (s.op = .reloading)) &&
    decide (s.mp.port = .active) && decide (s.posted.barriers[k] = some .met) && s.sequenceReady

/-- The finding of a ring-space wait (R118): flagged and counted once for a head slot. -/
def State.noteRingWait (s : State) : State :=
  match s.journal.commitQueue with
  | [] => s
  | k :: _ =>
    if s.sealReadyButSpace k && !s.spaceReady k && !s.journal.ringWait then
      ({ s with journal := { s.journal with ringWait := true } }.count .ringWaits).setFlag .ringWait
    else s

/-! ### The Memory Port (R144 to R153) -/

/-- The rotation point after a grant (R149). -/
def Rotor.next : Rotor → Rotor
  | .read => .drain | .drain => .sealer | .sealer => .apply | .apply => .read

/-- The cyclic search from a rotation point (R149). -/
def Rotor.order (r : Rotor) : List Rotor := [r, r.next, r.next.next, r.next.next.next]

/-- The memory word at a ring offset. -/
def Region.wordAt (r : Region) (offset : Nat) : Addr := BitVec.ofNat 24 (r.base + offset)

/-- The base of the journal region in use, 0 when none is (no placement exists then). -/
def State.ring (s : State) : Region := s.region.getD { base := 0, size := 0 }

/-- The write that the Apply Engine's phase and cursor name (R133, R134). -/
def State.applyWrite (s : State) : Option WordOp :=
  match s.apply.applying with
  | none => none
  | some (k, .home) =>
    (s.entryAt k ((s.slot k).cursor.getD 0)).map fun e => .write e.word e.mask e.data
  | some (k, .retire) =>
    some (.write (s.ring.wordAt ((s.slot k).position.getD 0)) allLanes (headerWord retiredByte (s.slotLen k)))

/-- The operation that a requester asks for, `none` when it has no work (R148). -/
def State.nextOp (s : State) (r : Rotor) : Option WordOp :=
  match r with
  | .read =>
    match s.held with
    | none => none
    | some h => if h.granted then none else some (.read h.word)
  | .drain =>
    match s.posted.entries with
    | [] => none
    | e :: rest => if (e :: rest).any PostedEntry.writing then none else some (.write e.word e.mask e.data)
  | .sealer =>
    match s.journal.sealWrites with
    | [] => none
    | (a, w) :: _ => some (.write a allLanes w)
  | .apply => s.applyWrite

/-- The operation that the Recovery Scanner asks for (R148, R165, R167). -/
def State.scannerOp (s : State) : Option WordOp :=
  match s.scanner.activity with
  | .idle => none
  | .scanning => some (.read (s.ring.wordAt (s.scanner.offset + 4 * s.scanner.buffer.length)))
  | .replaying ((a, d) :: _) => some (.write (entryWord a) (entryMask a) d)
  | .replaying [] =>
    match s.scanner.chosen with
    | none => none
    | some c => some (.write (s.ring.wordAt c.offset) allLanes (headerWord retiredByte c.count))

/-- The requester notes its grant: the READ, or the head entry's WRITING (R97, R105). -/
def State.noteGrant (s : State) (r : Rotor) : State :=
  match r with
  | .read => { s with held := s.held.map fun h => { h with granted := true } }
  | .drain =>
    match s.posted.entries with
    | [] => s
    | e :: rest => { s with posted := { s.posted with entries := { e with writing := true } :: rest } }
  | .sealer => s
  | .apply => s

/-- The first requester with work from the rotation point, with its operation (R149). -/
def State.nextGrant (s : State) : Option (Rotor × WordOp) :=
  (Rotor.order s.mp.rotation).findSome? fun r => (s.nextOp r).map fun op => (r, op)

/-- The port may grant (R149). -/
def State.mayGrant (s : State) : Bool :=
  decide (s.power = .up) && decide (s.mp.port = .active) && s.mp.inFlight.isNone && !s.mp.warning

/-- The grant that the arbiter makes after an event, if one is due (R149, R150). -/
def State.grant (s : State) : State :=
  if s.mayGrant then
    if s.op = .recovering then
      match s.scannerOp with
      | none => s
      | some op => { s with mp := { s.mp with inFlight := some { requester := .scanner, op } } }
    else
      match s.nextGrant with
      | none => s
      | some (r, op) =>
        { s with mp := { s.mp with inFlight := some { requester := .rotor r, op }, rotation := r.next } }.noteGrant r
  else s

/-- The port enters QUIESCED; a held READ not yet granted is answered RETRY and withdrawn (R4, R151). -/
def State.enterQuiesced (s : State) : State :=
  let s := { s with mp := { s.mp with port := .quiesced, warning := false } }
  match s.held with
  | none => s
  | some h => if h.granted then s else { s with held := none }.reply h.source .retry

/-- A pending warning takes effect when the operation in flight has completed (R151). -/
def State.quiesceIfWarned (s : State) : State :=
  if s.mp.warning ∧ s.mp.inFlight = none then s.enterQuiesced else s

/-- The effect of the operation in flight on the RAM at its completion (R146); the port is then free (R144). -/
def State.completeOp (s : State) : State :=
  let s' := { s with mp := { s.mp with inFlight := none } }
  match s.mp.inFlight with
  | some { requester := _, op := .write word mask data } => { s' with mem := s.mem.writeWord word mask data }
  | _ => s'

/-- The operation in flight belongs to this requester. -/
def State.inFlightOf (s : State) (r : Requester) : Bool :=
  match s.mp.inFlight with
  | none => false
  | some op => decide (op.requester = r)

/-! ### RELOAD's wait (R174, R175) -/

/-- What the wait of R174 waits for: queues empty, no slot SEALING or APPLYING. -/
def State.drained (s : State) : Bool :=
  decide (s.journal.commitQueue = []) && decide (s.apply.queue = []) && s.sealingSlot.isNone &&
    s.apply.applying.isNone && decide (s.posted.entries = [])

/-- In RELOADING, at the end of the wait the runtime guards are cleared, and LOADING is entered once the Configuration
Link is not busy (R174, R175). The wait does not end while the port is QUIESCED (R152, R173); the further wait for the
link does not look at the port (log 13). -/
def State.endReloadWait (s : State) : State :=
  if s.op = .reloading then
    let s :=
      if s.drained && decide (s.mp.port = .active) && !s.guardsCleared then
        { s.clearRuntimeGuards with guardsCleared := true }
      else s
    if s.guardsCleared ∧ s.cl.op = none then { s with op := .loading, guardsCleared := false } else s
  else s

/-- What follows the completion of a memory operation, and the port's return to ACTIVE. While the port is still ACTIVE:
the ring-space finding (R118), the end of RELOAD's wait (R174). Then the pending quiesce (R128, R151), and the next grant
(R149). Log 18. -/
def State.settle (s : State) : State := s.noteRingWait.endReloadWait.quiesceIfWarned.grant

/-! ### Link reset (R50, R87, R96, R104, R127, R171) -/

/-- What link reset does to one slot (R50, R68, R104). -/
def State.linkResetSlot (s : State) (k : SlotId) : State :=
  match (s.slot k).state with
  | .filling | .ready | .queued =>
    (((s.freeSlot k).setBarrier k none).count .discardedGroups).recordEnd k ((s.slot k).owner.getD 0) .discardedReset
  | .aborted => s.freeSlot k
  | .free | .sealing | .sealed | .applying => s

/-- A held READ is answered RETRY and dropped (R4). -/
def State.dropHeldRead (s : State) : State :=
  match s.held with
  | none => s
  | some h => { s with held := none }.reply h.source .retry

/-- Combining is blocked into each entry whose epoch equals its source's epoch (R95, R96). -/
def State.blockWrapped (s : State) (of : Source → Bool) : State :=
  s.mapPosted fun e => if of e.source ∧ e.epoch = (s.source e.source).epoch then { e with combine := false } else e

/-- The effects of a link reset at one event (R171). -/
def State.linkReset (s : State) : State :=
  let s := allSlots.foldl State.linkResetSlot s.dropHeldRead
  let s := s.mapSources fun _ e => { SourceEntry.empty with epoch := e.epoch + 1 }
  let s := s.blockWrapped fun _ => true
  { s with journal := { s.journal with commitQueue := [], ringWait := false } }

/-! ### Power (R147, R154, R157, R189) -/

/-- A RAM write in flight is cut short: whole old or whole new (R147). Log 8. -/
def State.cutMemory (s : State) : State :=
  match s.mp.inFlight with
  | some { requester := _, op := .write word mask data } =>
    { s with mem := if Config.cutWriteLands s.freeCount then s.mem.writeWord word mask data else s.mem,
             freeCount := s.freeCount + 1 }
  | _ => s

/-- The EEPROM address of the window's flags byte (spec/12 section 12.3). -/
def flagsAddr (w : WindowId) : Nat := 22 + 7 * w.val

/-- The EEPROM address of the check byte (spec/12 section 12.3). -/
def checkAddr : Nat := 15

/-- The cell and byte of an EEPROM write that has been acknowledged and is being polled for (R187, R188). -/
def LinkOp.polledCell : LinkOp → Option (Nat × Byte)
  | .write addr data (.polling _) => some (addr.toNat, data)
  | .guardWriteFlags w _ flags _ (.polling _) => some (flagsAddr w, flags)
  | .guardWriteCheck _ _ check (.polling _) => some (checkAddr, check)
  | _ => none

/-- An EEPROM cell write that was under way, if any, finishes or does not, as the device decides. Log 10. -/
def State.mayFinishCell (s : State) (cell : Option (Nat × Byte)) : State :=
  match cell with
  | none => s
  | some (a, b) =>
    { s with eeprom := if Config.cutCellLands s.freeCount then s.eeprom.set a b else s.eeprom,
             freeCount := s.freeCount + 1 }

/-- Power-on reset and power loss cut off the link's operation: an acknowledged byte finishes in its cell or does not
(R189). -/
def State.cutCell (s : State) : State := s.mayFinishCell (s.cl.op.bind LinkOp.polledCell)

/-- Every piece of state of the part at its reset value (R157); the lines, the RAM, the EEPROM and the model's own
fields keep theirs. -/
def State.powerOnValues (s : State) (power : Power) : State :=
  { State.reset with
    pending := s.pending, lines := s.lines, power, mem := s.mem, eeprom := s.eeprom, freeCount := s.freeCount }

end Sys2Proof.Machine
end

