-- ==== Sys2Proof/Machine/Requests.lean ====
section
/-! DEFINITION. READ, READ_COMPOSITION and WRITE: the read path, loose writes and the Posted Write Queue, group writes
(R4 to R22, R33 to R37, R91 to R108). -/

namespace Sys2Proof.Machine

/-! ### READ -/

/-- A READ in RUNNING with the port ACTIVE: form, hidden test, then held in the port while its word read is asked
(R5, R13, R105). -/
def State.judgeRead (s : State) (src : Source) (addr : Addr) : State :=
  let s := s.clearHold src
  if addr.toNat % 4 ≠ 0 then s.replyFault src .read addr .align
  else
    let l := s.lookup addr
    if l.hidden then s.replyFault src .read addr .hidden
    else { s with held := some { source := src, addr, word := l.word, granted := false }, bus := .held src }.grant

/-- READ (R105). -/
def execRead (src : Source) (addr : Addr) (s : State) : Host.Outcome State Fault Refusal :=
  .next (s.quiet.request src .read addr fun s => s.judgeRead src addr)

/-- The posted bytes for a word laid over, oldest entry first (R106). -/
def overlayPosted (entries : List PostedEntry) (word : Addr) (data : Word) : Word :=
  entries.foldl (fun d e => if e.word = word then mergeLanes d e.data e.mask else d) data

/-- The overlay question of R64: the staged entry whose bytes this reader sees for the word. -/
def State.overlayFor (s : State) (src : Source) (word : Addr) : Option StagingEntry :=
  match s.claimOf word with
  | none => none
  | some e =>
    match (s.slot e.slot).state with
    | .filling | .ready => if (s.source src).link = some e.slot then some e else none
    | .sealed | .applying => some e
    | .free | .aborted | .queued | .sealing => none

/-- Memory, posted bytes, staged bytes (R106). -/
def State.composeRead (s : State) (src : Source) (word : Addr) (memory : Word) : Word :=
  let posted := overlayPosted s.posted.entries word memory
  match s.overlayFor src word with
  | none => posted
  | some e => mergeLanes posted e.data e.mask

/-- A parity fault is flagged and counted (R108, R166). -/
def State.noteParity (s : State) : State := (s.count .parityFaults).setFlag .parity

/-- The held READ is answered at the completion of its word read (R106, R108). A read whose READ has gone (R4) has its
data discarded, its parity indication with them (log 17). -/
def State.answerRead (s : State) (parityFault : Bool) (memory : Word) : State :=
  match s.held with
  | none => s
  | some h =>
    if h.granted then
      let s := { s with held := none }
      if parityFault then s.noteParity.replyFault h.source .read h.addr .parity
      else s.reply h.source (.done (s.composeRead h.source h.word memory))
    else s

/-- READ_COMPOSITION (R106): the completion of the word read of the read path. -/
def execReadComposition (parityFault : Bool) (s : State) : Host.Outcome State Fault Refusal :=
  let s := s.quiet
  .next <|
    match s.mp.inFlight with
    | some { requester := .rotor .read, op := .read word } =>
      (s.completeOp.answerRead parityFault (s.mem.readWord word)).settle
    | _ => s

/-! ### Loose writes -/

/-- The entry may take combined bytes of a write from this source (conditions 3 to 5 of R93). -/
def PostedEntry.takes (e : PostedEntry) (src : Source) (epoch : Stamp) : Bool :=
  decide (e.source = src) && decide (e.epoch = epoch) && e.combine && !e.writing

/-- The entries with the write combined into the youngest entry for its word, if that entry takes it (R93, R94). -/
def combineInto (src : Source) (epoch : Stamp) (word : Addr) (mask : Mask) (data : Word) :
    List PostedEntry → Option (List PostedEntry)
  | [] => none
  | e :: rest =>
    if rest.any fun x => decide (x.word = word) then (combineInto src epoch word mask data rest).map (e :: ·)
    else if e.word = word ∧ e.takes src epoch then
      some ({ e with data := mergeLanes e.data data mask, mask := e.mask ||| mask } :: rest)
    else none

/-- A new entry at the tail with the next arrival stamp (R92). -/
def State.postNew (s : State) (src : Source) (word : Addr) (mask : Mask) (data : Word) (combine : Bool) : State :=
  let e : PostedEntry :=
    { source := src, word, data := maskedData data mask, mask, epoch := (s.source src).epoch, combine,
      stamp := s.posted.nextStamp, writing := false }
  { s with posted := { s.posted with entries := s.posted.entries ++ [e], nextStamp := s.posted.nextStamp + 1 } }

/-- Acceptance of a loose write: combined or at the tail (R92, R93). -/
def State.post (s : State) (src : Source) (word : Addr) (mask : Mask) (data : Word) (combine : Bool) : State :=
  match (if combine then combineInto src (s.source src).epoch word mask data s.posted.entries else none) with
  | some entries => { s with posted := { s.posted with entries } }
  | none => s.postNew src word mask data combine

/-- The loose-write checks from the hidden test on (R19, R20). -/
def State.looseWrite (s : State) (src : Source) (addr : Addr) (mask : Mask) (data : Word) : State :=
  let l := s.lookup addr
  if l.hidden then s.refuse src .write addr .hidden
  else if l.grouped && !l.loose then s.refuse src .write addr .ungrouped
  else if l.guarded then s.noteGuardRefusal.refuse src .write addr .guarded
  else if s.holdExpired src then s.refuse src .write addr .conflict
  else
    match s.claimOf l.word with
    | some _ => s.holdRequest src (.loose addr)
    | none => (((s.clearHold src).post src l.word mask data l.combine).reply src (.done 0)).grant

/-! ### Group writes -/

/-- The write's window is the group's: the fixed one, or, before one is fixed, a GROUPED window and no hidden word
(R34). -/
def windowFits (fixed : Option WindowId) (l : Lookup) : Bool :=
  match fixed with
  | none => l.window.isSome && l.grouped && !l.hidden
  | some j => decide (l.window = some j)

/-- A request of the owner ends its group in an abort and is answered FAULT ABORTED (R39, R40). -/
def State.abortAnswer (s : State) (src : Source) (k : SlotId) (kind : RequestKind) (addr : Addr) (cause : AbortCause) :
    State :=
  (s.abortGroup k cause).refuse src kind addr .aborted

/-- The slot's side of staging: the window is fixed, the remaining count falls, READY at 0 (R37). -/
def State.takeWrite (s : State) (k : SlotId) (window : Option WindowId) : State :=
  let x := s.slot k
  let left := x.remaining.getD 0 - 1
  s.setSlot k { x with window := if x.window.isSome then x.window else window, remaining := some left,
                       state := if left = 0 then .ready else .filling }

/-- A group write to a FILLING slot (R34 to R37). -/
def State.fillingWrite (s : State) (src : Source) (k : SlotId) (addr : Addr) (mask : Mask) (data : Word) : State :=
  let l := s.lookup addr
  if !windowFits (s.slot k).window l then s.abortAnswer src k .write addr .window
  else if l.guarded then s.abortAnswer src k .write addr .guardProtected
  else if (s.claimOf l.word).any fun e => decide (e.slot ≠ k) then
    if s.holdExpired src then s.refuse src .write addr .aborted else s.holdRequest src (.group addr)
  else (((s.clearHold src).stage k l.word mask data).takeWrite k l.window).reply src (.done 0)

/-- A group write, judged first by its slot's state (R33). A link to a slot in FREE or QUEUED or later does not occur
(R26; log 22). -/
def State.groupWrite (s : State) (src : Source) (k : SlotId) (addr : Addr) (mask : Mask) (data : Word) : State :=
  match (s.slot k).state with
  | .filling => s.fillingWrite src k addr mask data
  | .ready => s.abortAnswer src k .write addr .excess
  | .aborted | .free | .queued | .sealing | .sealed | .applying => s.refuse src .write addr .aborted

/-- A WRITE in RUNNING with the port ACTIVE: hold comparison (R71), form (R5), dispatch by the group link (R7). -/
def State.judgeWrite (s : State) (src : Source) (addr : Addr) (mask : Mask) (data : Word) : State :=
  let s := s.compareHold src (HeldRequest.isWriteTo addr)
  if addr.toNat % 4 ≠ 0 then s.refuse src .write addr .align
  else if mask = 0 then s.refuse src .write addr .mask
  else
    match (s.source src).link with
    | some k => s.groupWrite src k addr mask data
    | none => s.looseWrite src addr mask data

/-- WRITE (R7). -/
def execWrite (src : Source) (addr : Addr) (mask : Mask) (data : Word) (guard : Bool) (s : State) :
    Host.Outcome State Fault Refusal :=
  .next ((s.quiet.sampleGuard guard).request src .write addr fun s => s.judgeWrite src addr mask data)

end Sys2Proof.Machine
end

