-- ==== Sys2Proof/Machine/Marks.lean ====
section
/-! DEFINITION. The marks: OPEN, COMMIT, DISCARD, ORDER, FLUSH, and a MARK with an unknown code
(R5, R28 to R32, R41 to R49, R80 to R83, R95, R102). -/

namespace Sys2Proof.Machine

/-! ### OPEN -/

/-- The lowest-numbered FREE slot (R30). -/
def State.freeSlotId (s : State) : Option SlotId := allSlots.find? fun k => decide ((s.slot k).state = .free)

/-- The slot that an OPEN of `n` writes would take: a FREE slot and `n` unreserved entries (R30). -/
def State.openSlot (s : State) (n : Nat) : Option SlotId := if n ≤ s.unreserved then s.freeSlotId else none

/-- Slot `k` is taken for a group of `n` writes of the source (R30). -/
def State.takeSlot (s : State) (src : Source) (k : SlotId) (n : Nat) : State :=
  (s.setSlot k { Slot.empty with state := .filling, owner := some src, declared := some n, remaining := some n,
                                 reservation := n }).setLink src (some k)

/-- An OPEN from a source with no link: count (R29), notice abandoned (R32), resources (R30, R31, R77). -/
def State.openFresh (s : State) (src : Source) (count : Byte) : State :=
  if count.toNat = 0 ∨ 32 < count.toNat then s.replyFault src .openMark 0 .count
  else
    let s := s.abandon src
    if s.holdExpired src then s.refuse src .openMark 0 .noSpace
    else
      match s.openSlot count.toNat with
      | some k => ((s.clearHold src).takeSlot src k count.toNat).reply src (.done 0)
      | none => s.holdRequest src (.openMark count)

/-- An OPEN in RUNNING with the port ACTIVE, judged by the source's link (R28, R32, R41, R42). A link to a slot in FREE
or QUEUED or later does not occur (R26; log 22). -/
def State.judgeOpen (s : State) (src : Source) (count : Byte) : State :=
  let s := s.compareHold src (HeldRequest.isOpenOf count)
  match (s.source src).link with
  | none => s.openFresh src count
  | some k =>
    let s := s.abandon src
    match (s.slot k).state with
    | .filling | .ready => s.abortAnswer src k .openMark 0 .nested
    | .aborted | .free | .queued | .sealing | .sealed | .applying => s.refuse src .openMark 0 .aborted

/-- OPEN (R28). -/
def execOpenMark (src : Source) (count : Byte) (s : State) : Host.Outcome State Fault Refusal :=
  .next (s.quiet.request src .openMark 0 fun s => s.judgeOpen src count)

/-! ### COMMIT -/

/-- The seal barrier point at this event: the tail entry's stamp, or met when the queue is empty (R102). -/
def State.barrierNow (s : State) : Barrier :=
  match s.posted.entries.getLast? with
  | none => .met
  | some e => .entry e.stamp

/-- Acceptance of a COMMIT (R45, R102). -/
def State.acceptCommit (s : State) (src : Source) (k : SlotId) : State :=
  let s := s.setSlot k { s.slot k with state := .queued, remaining := none, reservation := s.slotLen k }
  let s := { s with journal := { s.journal with commitQueue := s.journal.commitQueue ++ [k] } }
  let s := s.setLink src none
  let s := s.setCompletion src (some { notice := .commit k, status := .waiting })
  (s.setBarrier k (some s.barrierNow)).reply src .retry

/-- A COMMIT from the owner of a READY slot: the guard of the group's window, then acceptance (R44, R45). -/
def State.commitReady (s : State) (src : Source) (k : SlotId) : State :=
  if (s.slot k).window.any fun i => s.windowGuarded i then s.abortAnswer src k .commit 0 .guardProtected
  else (s.acceptCommit src k).noteRingWait

/-- A COMMIT from a source with no link: a repeat answered from its completion record, or NO-GROUP (R43, R82). -/
def State.commitUnlinked (s : State) (src : Source) : State :=
  match (s.source src).completion with
  | some { notice := .commit _, status := .waiting } => s.reply src .retry
  | some { notice := .commit _, status := .ready _ } => (s.setCompletion src none).reply src (.done 0)
  | some { notice := .flush _ _, status := _ } => (s.abandon src).replyFault src .commit 0 .noGroup
  | none => s.replyFault src .commit 0 .noGroup

/-- A COMMIT in RUNNING with the port ACTIVE (R43, R83). A link to a slot in FREE or QUEUED or later does not occur
(R26; log 22). -/
def State.judgeCommit (s : State) (src : Source) : State :=
  let s := s.clearHold src
  match (s.source src).link with
  | none => s.commitUnlinked src
  | some k =>
    let s := s.abandon src
    match (s.slot k).state with
    | .filling => s.abortAnswer src k .commit 0 .short
    | .ready => s.commitReady src k
    | .aborted | .free | .queued | .sealing | .sealed | .applying => s.replyFault src .commit 0 .aborted

/-- COMMIT (R43); its argument is ignored (R5). -/
def execCommitMark (src : Source) (_arg : Byte) (guard : Bool) (s : State) : Host.Outcome State Fault Refusal :=
  .next ((s.quiet.sampleGuard guard).request src .commit 0 fun s => s.judgeCommit src)

/-! ### DISCARD -/

/-- A DISCARD in RUNNING with the port ACTIVE (R47 to R49). A link to a slot in FREE or QUEUED or later does not occur
(R26; log 22). -/
def State.judgeDiscard (s : State) (src : Source) (reason : Byte) : State :=
  let s := s.clearHold src
  match (s.source src).link with
  | none => s.replyFault src .discard 0 .noGroup
  | some k =>
    match (s.slot k).state with
    | .filling | .ready =>
      (((((s.freeSlot k).setLink src none).count .discardedGroups).recordEnd k ((s.slot k).owner.getD 0)
        (.discarded reason))).reply src (.done 0)
    | .aborted =>
      ((s.freeSlot k).setLink src none).reply src
        (.done (lane0 (((s.slot k).cause.map AbortCause.toByte).getD 0)))
    | .free | .queued | .sealing | .sealed | .applying => s.replyFault src .discard 0 .noGroup

/-- DISCARD (R47). -/
def execDiscardMark (src : Source) (reason : Byte) (s : State) : Host.Outcome State Fault Refusal :=
  .next (s.quiet.request src .discard 0 fun s => s.judgeDiscard src reason)

/-! ### ORDER -/

/-- Advance a source's ordering epoch (R73). -/
def State.advanceEpoch (s : State) (src : Source) : State :=
  s.setSource src { s.source src with epoch := (s.source src).epoch + 1 }

/-- An ORDER in RUNNING with the port ACTIVE (R95). -/
def State.judgeOrder (s : State) (src : Source) : State :=
  (((s.clearHold src).advanceEpoch src).blockWrapped fun i => decide (i = src)).reply src (.done 0)

/-- ORDER (R95); its argument is ignored (R5). -/
def execOrderMark (src : Source) (_arg : Byte) (s : State) : Host.Outcome State Fault Refusal :=
  .next (s.quiet.request src .order 0 fun s => s.judgeOrder src)

/-! ### FLUSH -/

/-- The slot stands in a FLUSH wait set formed now: QUEUED, SEALING, SEALED or APPLYING (R80). -/
def SlotState.committed : SlotState → Bool
  | .queued | .sealing | .sealed | .applying => true
  | .free | .filling | .ready | .aborted => false

/-- The posted members of a wait set formed now (R101). -/
def State.flushStamps (s : State) : List Stamp := s.posted.entries.map PostedEntry.stamp

/-- The slot members of a wait set formed now (R80). -/
def State.flushSlots (s : State) : List SlotId := allSlots.filter fun k => (s.slot k).state.committed

/-- A FLUSH that is not a repeat: its wait set is formed (R80). -/
def State.flushFresh (s : State) (src : Source) : State :=
  if s.flushStamps = [] ∧ s.flushSlots = [] then s.reply src (.done 0)
  else
    (s.setCompletion src (some { notice := .flush s.flushStamps s.flushSlots, status := .waiting })).reply src .retry

/-- A FLUSH in RUNNING with the port ACTIVE (R80, R82, R83). -/
def State.judgeFlush (s : State) (src : Source) : State :=
  let s := s.clearHold src
  match (s.source src).completion with
  | some { notice := .flush _ _, status := .waiting } => s.reply src .retry
  | some { notice := .flush _ _, status := .ready _ } => (s.setCompletion src none).reply src (.done 0)
  | some { notice := .commit _, status := _ } => (s.abandon src).flushFresh src
  | none => s.flushFresh src

/-- FLUSH (R80); its argument is ignored (R5). -/
def execFlushMark (src : Source) (_arg : Byte) (s : State) : Host.Outcome State Fault Refusal :=
  .next (s.quiet.request src .flush 0 fun s => s.judgeFlush src)

/-! ### A MARK with an unknown code -/

/-- BADMARK (R5): FAULT BADMARK, recorded as MARK with address 0 (R6). -/
def execBadMark (src : Source) (_code : BitVec 4) (_arg : Byte) (s : State) : Host.Outcome State Fault Refusal :=
  .next (s.quiet.request src .mark 0 fun s => s.refuse src .mark 0 .badMark)

end Sys2Proof.Machine
end

