-- ==== Sys2Proof/Machine/Timers.lean ====
section
/-! DEFINITION. The Timebase and the timers: TICK, HOLD_EXPIRY, COLLECT_EXPIRY, and the expiry of the polling window
(R75, R76, R84, R86, R187). -/

namespace Sys2Proof.Machine

/-- The hold and collect timers run: RUNNING, port ACTIVE (R86). -/
def State.timersRun (s : State) : Bool :=
  decide (s.power = .up) && decide (s.op = .running) && decide (s.mp.port = .active)

/-- A timer advances by one, not past its limit. -/
def advanceTimer (limit t : Nat) : Nat := if t < limit then t + 1 else t

/-- A hold timer at a tick (R75). -/
def Hold.tick (limit : Nat) (h : Hold) : Hold := if h.expired then h else { h with timer := advanceTimer limit h.timer }

/-- A completion record at a tick (R84). -/
def Completion.tick (limit : Nat) (c : Completion) : Completion :=
  match c.status with
  | .waiting => c
  | .ready t => { c with status := .ready (advanceTimer limit t) }

/-- The polling window of R187, in ticks. -/
def pollingWindow : Nat := 20000

/-- One EEPROM byte write at a tick (R187). -/
def ByteWrite.tick : ByteWrite → ByteWrite
  | .sending => .sending
  | .polling t => .polling (advanceTimer pollingWindow t)

/-- The Configuration Link's operation at a tick: the polling timer runs in every operating state and while QUIESCED
(R187). -/
def LinkOp.tick : LinkOp → LinkOp
  | .write a d p => .write a d p.tick
  | .guardWriteFlags w v f c p => .guardWriteFlags w v f c p.tick
  | .guardWriteCheck w v c p => .guardWriteCheck w v c p.tick
  | .read a => .read a
  | .guardReadFlags w v => .guardReadFlags w v
  | .guardReadCheck w v f => .guardReadCheck w v f

/-! ### Expiry of holds -/

/-- The hold record's timer has reached the hold limit and it is not yet EXPIRED (R75). -/
def State.holdDue (s : State) (src : Source) : Bool :=
  match (s.source src).hold with
  | none => false
  | some h => !h.expired && decide (s.time.holdLimit ≤ h.timer)

/-- The held request is a group write (R76). -/
def HeldRequest.isGroup : HeldRequest → Bool
  | .group _ => true
  | .loose _ | .openMark _ => false

/-- Expiry of a hold record (R76): EXPIRED, counted, flagged, and a held group write's group aborted CONFLICT (R38). -/
def State.expireHold (s : State) (src : Source) : State :=
  match (s.source src).hold with
  | none => s
  | some h =>
    let s := ((s.setSource src { s.source src with hold := some { h with expired := true } }).count
      .holdExpiries).setFlag .holdExpired
    match h.request.isGroup, (s.source src).link with
    | true, some k => if (s.slot k).state = .filling then s.abortGroup k .conflict else s
    | _, _ => s

/-- The sources whose holds expire at this tick. -/
def State.dueHolds (s : State) : List Source := (List.finRange 16).filter s.holdDue

/-- These sources in cyclic order from `first` on (log 27). -/
def cyclicFrom (first : Source) (sources : List Source) : List Source :=
  sources.filter (fun i => decide (first ≤ i)) ++ sources.filter fun i => decide (i < first)

/-- The expiries of one tick, each an event on its own entry (R70, R75). The spec does not order several (log 27). -/
def State.expireHolds (s : State) : State :=
  match s.dueHolds with
  | [] => s
  | [i] => s.expireHold i
  | due =>
    (cyclicFrom (Config.firstToExpire s.freeCount) due).foldl State.expireHold
      { s with freeCount := s.freeCount + 1 }

/-! ### Expiry of notices -/

/-- The completion record is READY and its collect timer has reached the collect limit (R84). -/
def State.collectDue (s : State) (src : Source) : Bool :=
  match (s.source src).completion with
  | some { notice := _, status := .ready t } => decide (s.time.collectLimit ≤ t)
  | _ => false

/-- Expiry of a notice (R84): dropped, counted, flagged. -/
def State.expireNotice (s : State) (src : Source) : State :=
  ((s.setCompletion src none).count .abandonedNotices).setFlag .collectExpired

/-- The expiries of notices at one tick; their order has no effect (R70, R84). -/
def State.expireNotices (s : State) : State := ((List.finRange 16).filter s.collectDue).foldl State.expireNotice s

/-! ### Expiry of the polling window -/

/-- The polling timer of a byte write has run through its window (R187). -/
def ByteWrite.overdue : ByteWrite → Bool
  | .sending => false
  | .polling t => decide (pollingWindow ≤ t)

/-- The operation polls and its polling window has run out (R187). -/
def LinkOp.overdue : LinkOp → Bool
  | .write _ _ p => p.overdue
  | .guardWriteFlags _ _ _ _ p => p.overdue
  | .guardWriteCheck _ _ _ p => p.overdue
  | .read _ | .guardReadFlags _ _ | .guardReadCheck _ _ _ => false

/-- The cell that may yet have taken its byte when the window runs out: the byte of an EEPROM-WRITE or the flags byte;
the check byte stays old (R187, R188). -/
def LinkOp.unfinishedCell : LinkOp → Option (Nat × Byte)
  | .guardWriteCheck _ _ _ _ => none
  | op => op.polledCell

/-- The operation ends in error (R186); RELOAD may have waited for it (R175). -/
def State.failLinkOp (s : State) : State :=
  ({ s with cl := { s.cl with op := none, error := true } }.setFlag .cfgError).endReloadWait

/-- The polling window has run out: the operation ends in error (R187, R188). -/
def State.expirePolling (s : State) : State := (s.mayFinishCell (s.cl.op.bind LinkOp.unfinishedCell)).failLinkOp

/-! ### The tick -/

/-- The hold and collect timers at a tick (R75, R84). -/
def State.advanceTimers (s : State) : State :=
  s.mapSources fun _ e =>
    { e with hold := e.hold.map (Hold.tick s.time.holdLimit),
             completion := e.completion.map (Completion.tick s.time.collectLimit) }

/-- Holds and notices at a tick: the timers advance, and those that reach their limits expire (R75, R84, R86). -/
def State.tickSources (s : State) : State :=
  if s.timersRun then s.advanceTimers.expireHolds.expireNotices else s

/-- The Configuration Link at a tick: the polling timer advances, and the window may run out (R187). -/
def State.tickLink (s : State) : State :=
  let s := { s with cl := { s.cl with op := s.cl.op.map LinkOp.tick } }
  if s.cl.op.any LinkOp.overdue then s.expirePolling else s

/-- A tick of the Timebase (R86): the count starts anew, and every timer that runs advances and may expire. -/
def State.tick (s : State) : State :=
  { s with time := { s.time with count := 0 } }.tickSources.tickLink

/-- TICK (R86). The Timebase gives none while power-on reset is in force or without power (R157). -/
def execTick (s : State) : Host.Outcome State Fault Refusal :=
  .next (if s.power = .up then s.quiet.tick else s.quiet)

/-- One CLK cycle with no command waiting: the divider counts it, and each divider's worth of cycles is a tick (R86).
Log 1. -/
def State.clockCycle (s : State) : State :=
  let s := s.quiet
  if s.power = .up then
    if s.time.divider ≤ s.time.count + 1 then s.tick else { s with time := { s.time with count := s.time.count + 1 } }
  else s

/-! ### The expiry commands: a tick as it reaches one timer (log 12) -/

/-- HOLD_EXPIRY (R76): the tick reaches this source's hold timer, which reaches the limit. -/
def execHoldExpiry (src : Source) (s : State) : Host.Outcome State Fault Refusal :=
  let s := s.quiet
  let s' := s.setSource src { s.source src with hold := (s.source src).hold.map (Hold.tick s.time.holdLimit) }
  .next (if s.timersRun && s'.holdDue src then s'.expireHold src else s)

/-- COLLECT_EXPIRY (R84): the tick reaches this source's collect timer, which reaches the limit. -/
def execCollectExpiry (src : Source) (s : State) : Host.Outcome State Fault Refusal :=
  let s := s.quiet
  let s' := s.setCompletion src ((s.source src).completion.map (Completion.tick s.time.collectLimit))
  .next (if s.timersRun && s'.collectDue src then s'.expireNotice src else s)

end Sys2Proof.Machine
end

