-- ==== Sys2Proof/Machine/Engines.lean ====
section
/-! DEFINITION. The engines behind the Memory Port: drain (R97), the seal (R112 to R126), apply and retirement
(R132 to R136), and the power-fail warning (R151, R153). -/

namespace Sys2Proof.Machine

/-! ### Drain -/

/-- A barrier point that names the stamp becomes met (R103). -/
def Barrier.meet (stamp : Stamp) : Barrier → Barrier
  | .met => .met
  | .entry x => if x = stamp then .met else .entry x

/-- The head entry leaves the queue at its write's completion (R97): wait sets lose it, barrier points that name it
become met. -/
def State.removeHead (s : State) : State :=
  match s.posted.entries with
  | [] => s
  | e :: rest =>
    { s with posted := { s.posted with
        entries := rest,
        barriers := Vector.ofFn fun k => s.posted.barriers[k].map (Barrier.meet e.stamp) } }.leaveWaitSets
      (fun x => decide (x ≠ e.stamp)) (fun _ => true)

/-- DRAIN_WRITE_COMPLETION (R97). -/
def execDrainWriteCompletion (s : State) : Host.Outcome State Fault Refusal :=
  let s := s.quiet
  .next (if s.inFlightOf (.rotor .drain) then s.completeOp.removeHead.settle else s)

/-! ### The seal -/

/-- The words of a slot's record in order, header LIVE, with the check and seal words last (R112, R114). -/
def State.recordWords (s : State) (k : SlotId) (seqNo : Word) : List Word :=
  let list := s.stagedList k
  let x := s.slot k
  let body :=
    [headerWord liveByte list.length, seqNo,
      originWord (x.declared.getD 0) ((x.window.map Fin.val).getD 0) k (x.owner.getD 0)] ++
    list.flatMap fun e => [entryAddrWord e.mask e.word, e.data]
  body ++ [checkWord body, ~~~ seqNo]

/-- Words at consecutive addresses of the ring from an offset on. -/
def wordsAt (r : Region) (offset : Nat) : List Word → List (Addr × Word)
  | [] => []
  | w :: ws => (r.wordAt offset, w) :: wordsAt r (offset + 4) ws

/-- The number that the next seal takes: the counter, or 1 at a wrap (R122, R123). -/
def State.nextSeqNo (s : State) : Word :=
  if s.journal.seqCounter = BitVec.allOnes 32 then 1 else s.journal.seqCounter

/-- Every condition of R121 for the head slot `k` of the Commit Queue. -/
def State.sealConditions (s : State) (k : SlotId) : Bool := s.sealReadyButSpace k && s.spaceReady k

/-- Head and fill, and in the empty-ring case tail, after a placement of `size` bytes (R116). -/
def Journal.place (j : Journal) (r : Region) (size : Nat) : Journal :=
  if size ≤ r.size - j.head then
    { j with head := if j.head + size = r.size then 0 else j.head + size, fill := j.fill + size }
  else if j.fill = 0 then { j with head := size, tail := 0, fill := size }
  else { j with head := size, fill := j.fill + (r.size - j.head) + size }

/-- The beginning of the seal of slot `k`, the head of the Commit Queue, in region `r` (R116, R123). -/
def State.beginSeal (s : State) (r : Region) (k : SlotId) (rest : List SlotId) : State :=
  let size := placementSize (s.slotLen k)
  let seqNo := s.nextSeqNo
  let left := r.size - s.journal.head
  let position := if size ≤ left then s.journal.head else 0
  let padWrite := if size ≤ left then [] else [(r.wordAt s.journal.head, headerWord padByte (left / 16))]
  let writes := padWrite ++ wordsAt r position (s.recordWords k seqNo)
  let s := s.setSlot k { s.slot k with state := .sealing, seqNo := some seqNo, position := some position,
                                       recordSize := some size }
  let s := { s with journal := { s.journal.place r size with
                                  seqCounter := seqNo + 1, commitQueue := rest, ringWait := false,
                                  sealWrites := writes } }
  s.setBarrier k none

/-- BEGINNING_OF_SEAL (R123), judged anew when it begins (R121). -/
def execBeginningOfSeal (s : State) : Host.Outcome State Fault Refusal :=
  let s := s.quiet
  .next <|
    match s.journal.commitQueue, s.region with
    | k :: rest, some r => if s.sealConditions k then (s.beginSeal r k rest).grant else s
    | _, _ => s

/-- The owner's COMMIT notice becomes READY at the commit point, if it names the slot (R79). -/
def Completion.commitPoint (k : SlotId) (c : Completion) : Completion :=
  match c.notice, c.status with
  | .commit j, .waiting => if j = k then { c with status := .ready 0 } else c
  | _, _ => c

/-- The commit point of slot `k` (R126, R79, R131, R132). -/
def State.commitPoint (s : State) (k : SlotId) : State :=
  let x := s.slot k
  let owner := x.owner.getD 0
  let s := s.setSlot k { x with state := .sealed }
  let s := s.setSource owner { s.source owner with completion := (s.source owner).completion.map (Completion.commitPoint k) }
  let s := (s.count .sealedGroups).recordEnd k owner (.sealed (x.seqNo.getD 0))
  let s := { s with apply := { s.apply with queue := s.apply.queue ++ [k] } }
  s.takeApplyHead

/-- A word of the seal has been written; the last one is the seal word, whose completion is the commit point
(R124, R126). -/
def State.sealWordWritten (s : State) : State :=
  let left := s.journal.sealWrites.drop 1
  let s := { s with journal := { s.journal with sealWrites := left } }
  match left, s.sealingSlot with
  | [], some k => s.commitPoint k
  | _, _ => s

/-- SEAL_WRITE_COMPLETION (R124). -/
def execSealWriteCompletion (s : State) : Host.Outcome State Fault Refusal :=
  let s := s.quiet
  .next (if s.inFlightOf (.rotor .sealer) then s.completeOp.sealWordWritten.settle else s)

/-! ### Apply and retirement -/

/-- After a home write of slot `k`: the cursor advances, or the phase becomes RETIRE (R133). -/
def State.homeWritten (s : State) (k : SlotId) : State :=
  let cursor := (s.slot k).cursor.getD 0
  if cursor + 1 < s.slotLen k then s.setSlot k { s.slot k with cursor := some (cursor + 1) }
  else { s with apply := { s.apply with applying := some (k, .retire) } }

/-- HOME_WRITE_COMPLETION (R133). -/
def execHomeWriteCompletion (s : State) : Host.Outcome State Fault Refusal :=
  let s := s.quiet
  .next <|
    match s.apply.applying with
    | some (k, .home) => if s.inFlightOf (.rotor .apply) then (s.completeOp.homeWritten k).settle else s
    | _ => s

/-- The ring position of the oldest placement that remains after the applying slot's: the head of the Apply Queue, or
the slot in SEALING (R136). -/
def State.oldestAfter (s : State) : Option Nat :=
  match s.apply.queue with
  | k :: _ => (s.slot k).position
  | [] => s.sealingSlot.bind fun k => (s.slot k).position

/-- Tail and fill at the retirement of a record of `size` bytes at `position`; `oldest` is the position of the oldest
placement that remains (R136). -/
def Journal.release (j : Journal) (r : Region) (position size : Nat) (oldest : Option Nat) : Journal :=
  let tail := if position + size = r.size then 0 else position + size
  let fill := j.fill - size
  if 0 < fill ∧ tail ≠ 0 ∧ oldest = some 0 then { j with tail := 0, fill := fill - (r.size - tail) }
  else { j with tail, fill }

/-- The retirement of the applying slot `k` (R135). -/
def State.retire (s : State) (k : SlotId) : State :=
  let x := s.slot k
  let s := { s with journal := s.journal.release s.ring (x.position.getD 0) (x.recordSize.getD 0) s.oldestAfter }
  let s := s.freeSlot k
  let s := { s with apply := { s.apply with applying := none } }
  (s.leaveWaitSets (fun _ => true) fun j => decide (j ≠ k)).takeApplyHead

/-- RETIREMENT (R135). -/
def execRetirement (s : State) : Host.Outcome State Fault Refusal :=
  let s := s.quiet
  .next <|
    match s.apply.applying with
    | some (k, .retire) => if s.inFlightOf (.rotor .apply) then (s.completeOp.retire k).settle else s
    | _ => s

/-! ### The power-fail warning -/

/-- PFAIL_N takes a level. -/
def State.setPfail (s : State) (level : Bool) : State := { s with lines := { s.lines with pfail := level } }

/-- The port meets a power-fail warning (R151): at once QUIESCED, or a warning pending on the operation in flight; no
further effect while QUIESCED or pending. -/
def State.warn (s : State) : State :=
  if s.mp.port = .quiesced ∨ s.mp.warning then s
  else
    match s.mp.inFlight with
    | none => s.enterQuiesced
    | some _ => { s with mp := { s.mp with warning := true } }

/-- PFAIL_N_ASSERTED (R151). Without power, and while power-on reset is in force, only the line has its level. -/
def execPfailAsserted (s : State) : Host.Outcome State Fault Refusal :=
  let s := s.quiet.setPfail true
  .next (if s.power = .up then (s.setFlag .powerWarn).warn else s)

/-- PFAIL_N_DEASSERTED (R151, R153). -/
def execPfailDeasserted (s : State) : Host.Outcome State Fault Refusal :=
  let s := s.quiet.setPfail false
  .next <|
    if s.power = .up then
      match s.mp.port with
      | .quiesced => { s with mp := { s.mp with port := .active } }.settle
      | .active => { s with mp := { s.mp with warning := false } }
    else s

end Sys2Proof.Machine
end

