-- ==== Sys2Proof/Machine/Startup.lean ====
section
/-! DEFINITION. Power-on reset and power loss, the load and installation of the configuration image, and link reset by
LRST_N (R147, R154 to R163, R171, R172, R192). -/

namespace Sys2Proof.Machine

/-! ### Power -/

/-- POWER_ON_RESET (R157): RESET_N asserted, or power applied. A RAM write and an EEPROM cell write in progress are cut
off (R147, R154, R189); a held READ is dropped without an answer (R4). -/
def execPowerOnReset (s : State) : Host.Outcome State Fault Refusal :=
  .next (s.cutMemory.cutCell.powerOnValues .inReset)

/-- END_OF_POWER_ON_RESET (R157): LOADING, with the port QUIESCED and POWER-WARN set if PFAIL_N is asserted (R154). -/
def execEndOfPowerOnReset (s : State) : Host.Outcome State Fault Refusal :=
  let s := s.quiet
  .next <|
    match s.power with
    | .inReset =>
      let s := { s with power := .up, op := .loading }
      if s.lines.pfail then (s.setFlag .powerWarn).warn else s
    | .off | .up => s

/-- POWER_LOSS (R147): writes in progress are cut off and every volatile piece of state is lost (log 23). -/
def execPowerLoss (s : State) : Host.Outcome State Fault Refusal :=
  .next (s.cutMemory.cutCell.powerOnValues .off)

/-! ### The configuration image (R159, R160, R192) -/

/-- Byte `i` of the image. -/
def State.imageByte (s : State) (i : Nat) : Byte := s.eeprom.get i

/-- Two bytes of the image, low byte first. -/
def State.imageTwo (s : State) (i : Nat) : Nat := (s.imageByte i).toNat + 256 * (s.imageByte (i + 1)).toNat

/-- The Timebase divider (R192). -/
def State.imageDivider (s : State) : Nat := (s.imageByte 4).toNat + 1
/-- The hold limit. -/
def State.imageHoldLimit (s : State) : Nat := s.imageTwo 5
/-- The collect limit. -/
def State.imageCollectLimit (s : State) : Nat := s.imageTwo 7
/-- The journal region (R192). -/
def State.imageRegion (s : State) : Region := { base := 256 * s.imageTwo 9, size := 256 * s.imageTwo 11 }
/-- The alert mask: bits 8 to 0 (R192). -/
def State.imageAlertMask (s : State) : BitVec 9 := BitVec.ofNat 9 (s.imageTwo 13)

/-- Bit 3 of a flags byte, the stored guard (spec/12 section 12.3). -/
def storedGuardBit : Byte := 0x08

/-- Window `i` of the image, its runtime guard kept (R9, R192). The bytes of a window that is not present are not
decoded (log 26). -/
def State.imageWindow (s : State) (i : WindowId) (runtimeGuard : Bool) : Window :=
  let f := s.imageByte (flagsAddr i)
  let at_ := 16 + 7 * i.val
  if f.getLsbD 1 then
    { present := true, base := s.imageTwo at_, limit := s.imageTwo (at_ + 2), target := s.imageTwo (at_ + 4),
      grouped := f.getLsbD 2, loose := f.getLsbD 0, combine := f.getLsbD 4, storedGuard := f.getLsbD 3,
      pinGuard := f.getLsbD 5, runtimeGuard }
  else { Window.empty with runtimeGuard }

/-- The window pages test of one window (R159, R192). -/
def Window.pagesValid (w : Window) : Bool :=
  !w.present ||
    (decide (w.base ≤ 4095) && decide (w.limit ≤ 4095) && decide (w.target ≤ 4095) && decide (w.base ≤ w.limit) &&
      decide (w.target + (w.limit - w.base + 1) ≤ 4096))

/-- The upstream ranges of two windows are disjoint, if both are present (R159). -/
def Window.upstreamApart (v w : Window) : Bool :=
  !v.present || !w.present || decide (v.limit < w.base) || decide (w.limit < v.base)

/-- The target ranges of two windows are disjoint, if both are present (R159). -/
def Window.targetsApart (v w : Window) : Bool :=
  !v.present || !w.present || decide (v.target + (v.limit - v.base) < w.target) ||
    decide (w.target + (w.limit - w.base) < v.target)

/-- A window's target range does not meet the journal region (R159). -/
def Window.apartFrom (w : Window) (r : Region) : Bool :=
  !w.present || decide (4096 * (w.target + (w.limit - w.base) + 1) ≤ r.base) || decide (r.base + r.size ≤ 4096 * w.target)

/-- The sum of the 72 bytes modulo 256 (R160). -/
def State.imageSum (s : State) : Byte := ((List.range 72).map s.imageByte).foldl (· + ·) 0

/-- Every test of R159 on the image in the EEPROM. -/
def State.imageValid (s : State) : Bool :=
  let w := fun i : WindowId => s.imageWindow i false
  let r := s.imageRegion
  decide (s.imageByte 0 = 0x6A) && decide (s.imageByte 1 = 0x4B) && decide (s.imageByte 2 = 0x01) &&
    decide (s.imageByte 3 = 72) && decide (s.imageSum = 0) &&
    decide (16 ≤ s.imageHoldLimit) && decide (16 ≤ s.imageCollectLimit) &&
    decide (4 ≤ s.imageTwo 11) && decide (s.imageTwo 11 ≤ 256) && decide (r.base + r.size ≤ 16777216) &&
    ((List.finRange 8).all fun i => (w i).pagesValid && (w i).apartFrom r) &&
    ((List.finRange 8).all fun i => (List.finRange 8).all fun j =>
      decide (j ≤ i) || ((w i).upstreamApart (w j) && (w i).targetsApart (w j)))

/-- The Recovery Scanner at the entry to RECOVERING: the survey from offset 0 (R164). -/
def Scanner.start : Scanner := { Scanner.idle with activity := .scanning, pass := 1 }

/-- A valid image is installed all at once and the state becomes RECOVERING (R161, R164, R150). -/
def State.install (s : State) : State :=
  { s with
    windows := Vector.ofFn fun i => s.imageWindow i s.windows[i].runtimeGuard
    region := some s.imageRegion
    journal := { s.journal with head := 0, tail := 0, fill := 0 }
    time := { divider := s.imageDivider, count := 0, holdLimit := s.imageHoldLimit,
              collectLimit := s.imageCollectLimit }
    ml := { s.ml with alertMask := s.imageAlertMask }
    op := .recovering
    mp := { s.mp with rotation := .read }
    scanner := Scanner.start }

/-- A failed load: UNCONFIGURED (R162). -/
def State.failLoad (s : State) : State :=
  { s with
    windows := Vector.ofFn fun i => { s.windows[i] with present := false }
    region := none
    journal := { s.journal with head := 0, tail := 0, fill := 0, seqCounter := 1 }
    op := .unconfigured }.setFlag .cfgError

/-- END_OF_LOAD (R159): the image is judged whole, or an acknowledge was missed (R158). -/
def execEndOfLoad (acknowledged : Bool) (s : State) : Host.Outcome State Fault Refusal :=
  let s := s.quiet
  .next <|
    if s.power = .up ∧ s.op = .loading then
      if acknowledged && s.imageValid then s.install.grant else s.failLoad
    else s

/-! ### LRST_N -/

/-- LRST_N takes a level. -/
def State.setLrst (s : State) (level : Bool) : State := { s with lines := { s.lines with lrst := level } }

/-- LRST_N_ASSERTED (R171). Without power, and while power-on reset is in force, only the line has its level (R157). -/
def execLrstAsserted (s : State) : Host.Outcome State Fault Refusal :=
  let s := s.quiet.setLrst true
  .next (if s.power = .up then s.linkReset else s)

/-- LRST_N_DEASSERTED (R172). -/
def execLrstDeasserted (s : State) : Host.Outcome State Fault Refusal := .next (s.quiet.setLrst false)

end Sys2Proof.Machine
end

