-- ==== Sys2Proof/Machine/Recovery.lean ====
section
/-! DEFINITION. The Recovery Scanner: the scan of the ring, replay, and the end of recovery (R164 to R169). -/

namespace Sys2Proof.Machine

/-- Change the scanner's working state. -/
def State.setScanner (s : State) (x : Scanner) : State := { s with scanner := x }

/-- The end of recovery (R169). -/
def State.endRecovery (s : State) : State :=
  let counter : Word :=
    match s.scanner.highest with
    | none => 1
    | some h => if h = BitVec.allOnes 32 then 1 else h + 1
  let s := { s with
    journal := { s.journal with head := 0, tail := 0, fill := 0, seqCounter := counter }
    op := .running
    scanner := { s.scanner with activity := .idle } }
  if s.scanner.damage then s.setFlag .recoveryDamage else s

/-- Replay passes over the entries that are settled without a write: those of mask 0, and those inside the journal
region, for which the damage note is set (R167; log 19). The result starts with the entry to write. -/
def skipUnwritten (inRegion : Nat → Bool) : List (Word × Word) → List (Word × Word) × Bool
  | [] => ([], false)
  | (a, d) :: rest =>
    if inRegion (entryWord a).toNat then ((skipUnwritten inRegion rest).1, true)
    else if entryMask a = 0 then skipUnwritten inRegion rest
    else ((a, d) :: rest, false)

/-- Replay goes on with these entries of the chosen record, then its header (R167). -/
def State.replayFrom (s : State) (entries : List (Word × Word)) : State :=
  let next := skipUnwritten s.inRegion entries
  s.setScanner { s.scanner with activity := .replaying next.1, damage := s.scanner.damage || next.2 }

/-- The end of a pass: the chosen record is replayed, or the scanner's work ends (R167, R168). -/
def State.endPass (s : State) : State :=
  match s.scanner.chosen with
  | none => s.endRecovery
  | some c => s.replayFrom c.entries

/-- The scan offset advances and the buffer is cleared; at the ring size the pass ends (R165). -/
def State.advanceScan (s : State) (bytes : Nat) : State :=
  let s := s.setScanner { s.scanner with offset := s.scanner.offset + bytes, buffer := [] }
  if s.ring.size ≤ s.scanner.offset then s.endPass else s

/-- The first pass is the survey (R164, R166). -/
def State.inSurvey (s : State) : Bool := decide (s.scanner.pass = 1)

/-- A parity fault reported to the scanner (R166). -/
def State.surveyParity (s : State) : State := if s.inSurvey then s.noteParity else s

/-- A torn candidate (R165, R166). -/
def State.torn (s : State) : State :=
  let s := if s.inSurvey then
      (s.setScanner { s.scanner with damage := true }).count .tornCandidates
    else s
  s.advanceScan 16

/-- The survey raises the highest sequence (R166). -/
def raiseHighest (highest : Option Word) (seqNo : Word) : Word :=
  match highest with
  | none => seqNo
  | some h => if h.toNat < seqNo.toNat then seqNo else h

/-- A valid LIVE record is chosen when none is, or when its number is below the chosen one's (R166). -/
def State.chooses (s : State) (seqNo : Word) : Bool :=
  match s.scanner.chosen with
  | none => true
  | some c => decide (seqNo.toNat < c.seqNo.toNat)

/-- A valid record of `e` entries with these words (R165, R166). -/
def State.validRecord (s : State) (e : Nat) (ws : List Word) : State :=
  let seqNo := ws.getD 1 0
  let highest := if s.inSurvey then some (raiseHighest s.scanner.highest seqNo) else s.scanner.highest
  let chosen :=
    if headerState (ws.getD 0 0) = liveByte ∧ s.chooses seqNo then
      some { offset := s.scanner.offset, seqNo, count := e, origin := ws.getD 2 0, entries := recordEntries e ws }
    else s.scanner.chosen
  (s.setScanner { s.scanner with highest, chosen }).advanceScan (placementSize e)

/-- The header word at the scan offset has been read cleanly (R165). -/
def State.judgeHeader (s : State) (w : Word) : State :=
  let e := headerCount w
  if headerMarker w ≠ recordMarker then s.advanceScan 16
  else if headerState w = padByte then s.advanceScan 16
  else if (headerState w ≠ liveByte ∧ headerState w ≠ retiredByte) ∨ e = 0 ∨ 32 < e ∨
      s.ring.size < s.scanner.offset + placementSize e then s.torn
  else s.setScanner { s.scanner with buffer := [w] }

/-- A further word of a candidate has been read cleanly (R165). -/
def State.judgeWord (s : State) (header : Word) (w : Word) : State :=
  let e := headerCount header
  let ws := s.scanner.buffer ++ [w]
  if ws.length < 5 + 2 * e then s.setScanner { s.scanner with buffer := ws }
  else if recordValid e ws then s.validRecord e ws
  else s.torn

/-- A word read of the scanner has completed (R165, R166). -/
def State.scanned (s : State) (parityFault : Bool) (w : Word) : State :=
  match s.scanner.buffer with
  | [] => if parityFault then s.surveyParity.advanceScan 16 else s.judgeHeader w
  | header :: _ => if parityFault then s.surveyParity.torn else s.judgeWord header w

/-- RECOVERY_READ_COMPLETION (R165). -/
def execRecoveryReadCompletion (parityFault : Bool) (s : State) : Host.Outcome State Fault Refusal :=
  let s := s.quiet
  .next <|
    match s.mp.inFlight, s.scanner.activity with
    | some { requester := .scanner, op := .read word }, .scanning =>
      (s.completeOp.scanned parityFault (s.mem.readWord word)).settle
    | _, _ => s

/-- The header write of a replay has completed: counted, recorded, and the next pass begins (R167). -/
def State.replayed (s : State) (c : ChosenRecord) : State :=
  let s := (s.count .replayedRecords).recordEnd (originSlot c.origin) (originSource c.origin) (.replayed c.seqNo)
  s.setScanner { s.scanner with activity := .scanning, pass := s.scanner.pass + 1, offset := 0, buffer := [],
                                chosen := none }

/-- REPLAY_WRITE_COMPLETION (R167). -/
def execReplayWriteCompletion (s : State) : Host.Outcome State Fault Refusal :=
  let s := s.quiet
  .next <|
    match s.mp.inFlight, s.scanner.activity, s.scanner.chosen with
    | some { requester := .scanner, op := .write _ _ _ }, .replaying (_ :: rest), _ =>
      (s.completeOp.replayFrom rest).settle
    | some { requester := .scanner, op := .write _ _ _ }, .replaying [], some c => (s.completeOp.replayed c).settle
    | _, _, _ => s

end Sys2Proof.Machine
end

