-- ==== Sys2Proof/Machine/ConfigurationLink.lean ====
section
/-! DEFINITION. The Configuration Link: EEPROM reads and byte writes, the stored-guard operation, and the answers of the
EEPROM (R186 to R189). -/

namespace Sys2Proof.Machine

/-- The operation ends without error; RELOAD may have waited for it (R175, R186). -/
def State.endLinkOp (s : State) : State := { s with cl := { s.cl with op := none } }.endReloadWait

/-- The operation goes on with its next step. -/
def State.setLinkOp (s : State) (op : LinkOp) : State := { s with cl := { s.cl with op := some op } }

/-- Step 2 of R188: the flags byte with the stored-guard flag at the value. -/
def formFlags (old : Byte) (value : Bool) : Byte := if value then old ||| storedGuardBit else old &&& ~~~ storedGuardBit

/-- Step 2 of R188: the check byte that keeps the image's sum. -/
def formCheck (oldCheck oldFlags newFlags : Byte) : Byte := oldCheck - newFlags + oldFlags

/-- A random read has returned its byte (R187, R188). -/
def State.linkRead (s : State) : State :=
  match s.cl.op with
  | some (.read a) => { s with cl := { s.cl with result := s.eeprom.get a.toNat } }.endLinkOp
  | some (.guardReadFlags w v) => s.setLinkOp (.guardReadCheck w v (s.eeprom.get (flagsAddr w)))
  | some (.guardReadCheck w v flags) =>
    let new := formFlags flags v
    s.setLinkOp (.guardWriteFlags w v new (formCheck (s.eeprom.get checkAddr) flags new) .sending)
  | some (.write _ _ _) | some (.guardWriteFlags _ _ _ _ _) | some (.guardWriteCheck _ _ _ _) | none => s

/-- RANDOM_READ_END (R187). -/
def execRandomReadEnd (s : State) : Host.Outcome State Fault Refusal := .next s.quiet.linkRead

/-- The data byte has been acknowledged: the link begins to poll (R187). -/
def State.linkAcknowledged (s : State) : State :=
  match s.cl.op with
  | some (.write a d .sending) => s.setLinkOp (.write a d (.polling 0))
  | some (.guardWriteFlags w v f c .sending) => s.setLinkOp (.guardWriteFlags w v f c (.polling 0))
  | some (.guardWriteCheck w v c .sending) => s.setLinkOp (.guardWriteCheck w v c (.polling 0))
  | some (.write _ _ (.polling _)) | some (.guardWriteFlags _ _ _ _ (.polling _))
  | some (.guardWriteCheck _ _ _ (.polling _)) | some (.read _) | some (.guardReadFlags _ _)
  | some (.guardReadCheck _ _ _) | none => s

/-- DATA_BYTE_ACKNOWLEDGE (R187). -/
def execDataByteAcknowledge (s : State) : Host.Outcome State Fault Refusal := .next s.quiet.linkAcknowledged

/-- The in-use stored guard of a window takes a value (R9, R188). -/
def State.setStoredGuardInUse (s : State) (w : WindowId) (v : Bool) : State :=
  { s with windows := s.windows.set w { s.windows[w] with storedGuard := v } }

/-- A poll has been acknowledged: the cell holds the byte; the write ends, or the next stored-guard step begins
(R187, R188). -/
def State.linkPolled (s : State) : State :=
  match s.cl.op with
  | some (.write a d (.polling _)) => { s with eeprom := s.eeprom.set a.toNat d }.endLinkOp
  | some (.guardWriteFlags w v f c (.polling _)) =>
    { s with eeprom := s.eeprom.set (flagsAddr w) f }.setLinkOp (.guardWriteCheck w v c .sending)
  | some (.guardWriteCheck w v c (.polling _)) =>
    ({ s with eeprom := s.eeprom.set checkAddr c }.setStoredGuardInUse w v).endLinkOp
  | some (.write _ _ .sending) | some (.guardWriteFlags _ _ _ _ .sending) | some (.guardWriteCheck _ _ _ .sending)
  | some (.read _) | some (.guardReadFlags _ _) | some (.guardReadCheck _ _ _) | none => s

/-- ACKNOWLEDGE_POLLING_END (R187). An acknowledge outside the polling window ends nothing without error. -/
def execAcknowledgePollingEnd (s : State) : Host.Outcome State Fault Refusal :=
  let s := s.quiet
  .next (if s.cl.op.any LinkOp.overdue then s.expirePolling else s.linkPolled)

/-- An address or data byte was not acknowledged: the operation ends in error; its cell keeps its byte (R187; log 20).
A poll that is not acknowledged is no such event. -/
def State.linkMissed (s : State) : State :=
  match s.cl.op with
  | some (.read _) | some (.guardReadFlags _ _) | some (.guardReadCheck _ _ _) | some (.write _ _ .sending)
  | some (.guardWriteFlags _ _ _ _ .sending) | some (.guardWriteCheck _ _ _ .sending) => s.failLinkOp
  | some (.write _ _ (.polling _)) | some (.guardWriteFlags _ _ _ _ (.polling _))
  | some (.guardWriteCheck _ _ _ (.polling _)) | none => s

/-- MISSING_ACKNOWLEDGE (R187). -/
def execMissingAcknowledge (s : State) : Host.Outcome State Fault Refusal := .next s.quiet.linkMissed

/-- POLLING_WINDOW_EXPIRY (R187): the tick reaches the polling timer, which runs through its window (log 12). -/
def execPollingWindowExpiry (s : State) : Host.Outcome State Fault Refusal :=
  let s := s.quiet
  let s' := { s with cl := { s.cl with op := s.cl.op.map LinkOp.tick } }
  .next (if s'.cl.op.any LinkOp.overdue then s'.expirePolling else s)

end Sys2Proof.Machine
end

