-- ==== Sys2Proof/Machine/Management.lean ====
section
/-! DEFINITION. The Management Link: items, write transactions, read transactions (R177 to R190, R193, spec/12
section 12.4). -/

namespace Sys2Proof.Machine

/-- The item's outcome becomes the item result and the item becomes the selected item (R177; log 16). -/
def State.itemTaken (s : State) (item : Item) (result : ItemResult) : State :=
  { s with ml := { s.ml with selected := item, result } }

/-- The Management Link answers on its link: not while power-on reset is in force, nor without power (R177). -/
def State.managed (s : State) (act : State → State) : State := if s.power = .up then act s else s

/-! ### Items that act at their taking -/

/-- CLEAR-FLAGS (R179). -/
def State.clearFlagsItem (s : State) (mask : BitVec 16) : State := (s.clearFlagBits mask).itemTaken .clearFlags .ok

/-- ALERT-MASK written: bits 8 to 0 (R180, R193). -/
def State.alertMaskItem (s : State) (mask : BitVec 16) : State :=
  { s with ml := { s.ml with alertMask := mask.setWidth 9 } }.itemTaken .alertMask .ok

/-- SET-RUNTIME-GUARD (R184). -/
def State.setRuntimeGuardItem (s : State) (index value : Byte) : State :=
  match windowIndex index, guardValue value with
  | some i, some v =>
    { s with windows := s.windows.set i { s.windows[i] with runtimeGuard := v } }.itemTaken .setRuntimeGuard .ok
  | _, _ => s.itemTaken .setRuntimeGuard .range

/-- LOCK-GUARDS (R185). -/
def State.lockGuardsItem (s : State) : State :=
  { s with ml := { s.ml with guardLock := true } }.itemTaken .lockGuards .ok

/-! ### Items that begin an operation of the Configuration Link -/

/-- The Configuration Link is busy, or LOADING is in progress (R186). -/
def State.linkBusy (s : State) : Bool := s.cl.op.isSome || decide (s.op = .loading)

/-- An accepted operation begins (R186). -/
def State.beginLinkOp (s : State) (op : LinkOp) : State :=
  { s with cl := { s.cl with op := some op, error := false } }

/-- SET-STORED-GUARD: RANGE, then LOCKED, then BUSY, else begun (R178, R188). -/
def State.setStoredGuardItem (s : State) (index value : Byte) : State :=
  match windowIndex index, guardValue value with
  | some i, some v =>
    if s.ml.guardLock then s.itemTaken .setStoredGuard .locked
    else if s.linkBusy then s.itemTaken .setStoredGuard .busy
    else (s.beginLinkOp (.guardReadFlags i v)).itemTaken .setStoredGuard .ok
  | _, _ => s.itemTaken .setStoredGuard .range

/-- EEPROM-READ (R186, R187). -/
def State.eepromReadItem (s : State) (addr : Byte) : State :=
  if s.linkBusy then s.itemTaken .eepromRead .busy
  else (s.beginLinkOp (.read addr)).itemTaken .eepromRead .ok

/-- EEPROM-WRITE (R186, R187). -/
def State.eepromWriteItem (s : State) (addr data : Byte) : State :=
  if s.ml.guardLock then s.itemTaken .eepromWrite .locked
  else if s.linkBusy then s.itemTaken .eepromWrite .busy
  else (s.beginLinkOp (.write addr data .sending)).itemTaken .eepromWrite .ok

/-! ### Items that reach the Start-up Controller -/

/-- RELOAD (R173, R190): RELOADING, the link-reset effects, and the wait, which may end at once (R174). -/
def State.reloadItem (s : State) : State :=
  match s.op with
  | .running | .unconfigured =>
    ({ s with op := .reloading, guardsCleared := false }.linkReset.endReloadWait).itemTaken .reload .ok
  | .loading | .recovering | .reloading => s.itemTaken .reload .busy

/-- LINK-RESET (R171, R190). -/
def State.linkResetItem (s : State) : State := s.linkReset.itemTaken .linkReset .ok

/-! ### The commands -/

/-- CLEAR_FLAGS (R179). -/
def execClearFlags (mask : BitVec 16) (s : State) : Host.Outcome State Fault Refusal :=
  .next (s.quiet.managed fun s => s.clearFlagsItem mask)

/-- ALERT_MASK (R193). -/
def execAlertMask (mask : BitVec 16) (s : State) : Host.Outcome State Fault Refusal :=
  .next (s.quiet.managed fun s => s.alertMaskItem mask)

/-- SET_RUNTIME_GUARD (R184). -/
def execSetRuntimeGuard (index value : Byte) (s : State) : Host.Outcome State Fault Refusal :=
  .next (s.quiet.managed fun s => s.setRuntimeGuardItem index value)

/-- LOCK_GUARDS (R185). -/
def execLockGuards (s : State) : Host.Outcome State Fault Refusal :=
  .next (s.quiet.managed fun s => s.lockGuardsItem)

/-- SET_STORED_GUARD (R188). -/
def execSetStoredGuard (index value : Byte) (s : State) : Host.Outcome State Fault Refusal :=
  .next (s.quiet.managed fun s => s.setStoredGuardItem index value)

/-- EEPROM_READ (R187). -/
def execEepromRead (addr : Byte) (s : State) : Host.Outcome State Fault Refusal :=
  .next (s.quiet.managed fun s => s.eepromReadItem addr)

/-- EEPROM_WRITE (R187). -/
def execEepromWrite (addr data : Byte) (s : State) : Host.Outcome State Fault Refusal :=
  .next (s.quiet.managed fun s => s.eepromWriteItem addr data)

/-- RELOAD (R173). -/
def execReload (s : State) : Host.Outcome State Fault Refusal := .next (s.quiet.managed State.reloadItem)

/-- LINK_RESET (R190). -/
def execLinkReset (s : State) : Host.Outcome State Fault Refusal := .next (s.quiet.managed State.linkResetItem)

/-! ### Write transactions in general -/

/-- The item result alone changes (R177: SHORT, UNKNOWN). -/
def State.setResult (s : State) (result : ItemResult) : State := { s with ml := { s.ml with result } }

/-- The command items with their whole length of bytes, later bytes disregarded (R177). -/
def State.commandItem (s : State) (item : Item) (bytes : List Byte) : State :=
  let b := fun i => bytes.getD i 0
  match item with
  | .clearFlags => s.clearFlagsItem (twoBytes (b 0) (b 1))
  | .alertMask => s.alertMaskItem (twoBytes (b 0) (b 1))
  | .setRuntimeGuard => s.setRuntimeGuardItem (b 0) (b 1)
  | .lockGuards => s.lockGuardsItem
  | .setStoredGuard => s.setStoredGuardItem (b 0) (b 1)
  | .eepromRead => s.eepromReadItem (b 0)
  | .eepromWrite => s.eepromWriteItem (b 0) (b 1)
  | .reload => s.reloadItem
  | .linkReset => s.linkResetItem
  | .status | .flags | .counter _ | .lastFault | .lastEnd | .eepromResult => s

/-- A write transaction, taken at its stop (R177, R193): no byte, an unknown item, a read item (ALERT-MASK among them
with no further byte), a command item that is short, or one acted on. -/
def State.writeTransaction (s : State) (bytes : List Byte) : State :=
  match bytes with
  | [] => s
  | n :: rest =>
    match Item.ofNumber n with
    | none => s.setResult .unknown
    | some item =>
      match item.commandLength with
      | none => s.itemTaken item .ok
      | some length =>
        if item = .alertMask ∧ rest = [] then s.itemTaken .alertMask .ok
        else if rest.length < length then s.setResult .short
        else s.commandItem item rest

/-- MANAGEMENT_WRITE_TRANSACTION (R177). -/
def execManagementWriteTransaction (bytes : List Byte) (s : State) : Host.Outcome State Fault Refusal :=
  .next (s.quiet.managed fun s => s.writeTransaction bytes)

/-! ### Read transactions (log 25) -/

/-- A bit as 0 or 1. -/
def bit (b : Bool) : Byte := if b then 1 else 0

/-- `n` bytes of a number, low byte first (spec/12). -/
def lowFirst : Nat → Nat → List Byte
  | 0, _ => []
  | n + 1, v => BitVec.ofNat 8 v :: lowFirst n (v / 256)

/-- STATUS (spec/12 section 12.4). -/
def State.statusBytes (s : State) : List Byte :=
  [s.op.toByte, bit (decide (s.mp.port = .quiesced))] ++ lowFirst 2 s.journal.head ++ lowFirst 2 s.journal.tail ++
    lowFirst 3 s.journal.fill ++ lowFirst 4 s.journal.seqCounter.toNat ++
    allSlots.map (fun k => (s.slot k).state.toByte) ++
    [bit s.ml.guardLock + 2 * bit s.cl.op.isSome + 4 * bit s.cl.error]

/-- LAST-FAULT (spec/12 section 12.4): EMPTY shows every byte 0. -/
def State.lastFaultBytes (s : State) : List Byte :=
  match s.ml.lastFault with
  | none => [0, 0, 0, 0, 0, 0]
  | some r => [BitVec.ofNat 8 r.source.val, r.kind.toByte] ++ lowFirst 3 r.addr.toNat ++ [r.code.toByte]

/-- Outcome byte, cause type, cause value and sequence of LAST-END (spec/12 section 12.4). -/
def EndOutcome.bytes : EndOutcome → List Byte
  | .sealed n => [1, 0, 0] ++ lowFirst 4 n.toNat
  | .replayed n => [1, 3, 0] ++ lowFirst 4 n.toNat
  | .discarded reason => [2, 1, reason, 0, 0, 0, 0]
  | .discardedReset => [2, 2, 0, 0, 0, 0, 0]
  | .aborted cause => [3, 4, cause.toByte, 0, 0, 0, 0]

/-- LAST-END (spec/12 section 12.4): EMPTY shows every byte 0. -/
def State.lastEndBytes (s : State) : List Byte :=
  match s.ml.lastEnd with
  | none => [0, 0, 0, 0, 0, 0, 0, 0, 0]
  | some r => [BitVec.ofNat 8 r.slot.val, BitVec.ofNat 8 r.source.val] ++ r.outcome.bytes

/-- The data of an item; a command item has none, but ALERT-MASK is read as well (R177, R193). -/
def State.itemData (s : State) : Item → List Byte
  | .status => s.statusBytes
  | .flags => lowFirst 2 s.ml.flags.toNat
  | .alertMask => lowFirst 2 s.ml.alertMask.toNat
  | .counter c => lowFirst 4 (s.counter c).toNat
  | .lastFault => s.lastFaultBytes
  | .lastEnd => s.lastEndBytes
  | .eepromResult => [bit s.cl.op.isSome + 2 * bit s.cl.error, s.cl.result]
  | .clearFlags | .setRuntimeGuard | .lockGuards | .setStoredGuard | .eepromRead | .eepromWrite | .reload
  | .linkReset => []

/-- What a read transaction returns (R177): nothing while the link does not answer; else the item result and the data of
the selected item. It changes nothing. -/
def State.readTransaction (s : State) : Option (List Byte) :=
  if s.power = .up then some (s.ml.result.toByte :: s.itemData s.ml.selected) else none

/-- The two-wire target address of the Management Link (R177). -/
def State.managementAddress (s : State) : Nat := 0x2C + s.lines.straps.toNat

end Sys2Proof.Machine
end

