-- ==== Sys2Proof/Machine/Dispatch.lean ====
section
/-! DEFINITION. One arm for each command. -/

namespace Sys2Proof.Machine

def exec (i : Instr) (s : State) : Host.Outcome State Fault Refusal :=
  match i with
  | .read src addr => Sys2Proof.Machine.execRead src addr s
  | .readComposition parityFault => Sys2Proof.Machine.execReadComposition parityFault s
  | .write src addr mask data guard => Sys2Proof.Machine.execWrite src addr mask data guard s
  | .openMark src count => Sys2Proof.Machine.execOpenMark src count s
  | .commitMark src arg guard => Sys2Proof.Machine.execCommitMark src arg guard s
  | .discardMark src reason => Sys2Proof.Machine.execDiscardMark src reason s
  | .orderMark src arg => Sys2Proof.Machine.execOrderMark src arg s
  | .flushMark src arg => Sys2Proof.Machine.execFlushMark src arg s
  | .badMark src code arg => Sys2Proof.Machine.execBadMark src code arg s
  | .tick => Sys2Proof.Machine.execTick s
  | .holdExpiry src => Sys2Proof.Machine.execHoldExpiry src s
  | .collectExpiry src => Sys2Proof.Machine.execCollectExpiry src s
  | .drainWriteCompletion => Sys2Proof.Machine.execDrainWriteCompletion s
  | .beginningOfSeal => Sys2Proof.Machine.execBeginningOfSeal s
  | .sealWriteCompletion => Sys2Proof.Machine.execSealWriteCompletion s
  | .homeWriteCompletion => Sys2Proof.Machine.execHomeWriteCompletion s
  | .retirement => Sys2Proof.Machine.execRetirement s
  | .pfailAsserted => Sys2Proof.Machine.execPfailAsserted s
  | .pfailDeasserted => Sys2Proof.Machine.execPfailDeasserted s
  | .powerOnReset => Sys2Proof.Machine.execPowerOnReset s
  | .endOfPowerOnReset => Sys2Proof.Machine.execEndOfPowerOnReset s
  | .lrstAsserted => Sys2Proof.Machine.execLrstAsserted s
  | .lrstDeasserted => Sys2Proof.Machine.execLrstDeasserted s
  | .endOfLoad acknowledged => Sys2Proof.Machine.execEndOfLoad acknowledged s
  | .recoveryReadCompletion parityFault => Sys2Proof.Machine.execRecoveryReadCompletion parityFault s
  | .replayWriteCompletion => Sys2Proof.Machine.execReplayWriteCompletion s
  | .clearFlags mask => Sys2Proof.Machine.execClearFlags mask s
  | .alertMask mask => Sys2Proof.Machine.execAlertMask mask s
  | .setRuntimeGuard index value => Sys2Proof.Machine.execSetRuntimeGuard index value s
  | .lockGuards => Sys2Proof.Machine.execLockGuards s
  | .setStoredGuard index value => Sys2Proof.Machine.execSetStoredGuard index value s
  | .eepromRead addr => Sys2Proof.Machine.execEepromRead addr s
  | .eepromWrite addr data => Sys2Proof.Machine.execEepromWrite addr data s
  | .reload => Sys2Proof.Machine.execReload s
  | .linkReset => Sys2Proof.Machine.execLinkReset s
  | .managementWriteTransaction bytes => Sys2Proof.Machine.execManagementWriteTransaction bytes s
  | .randomReadEnd => Sys2Proof.Machine.execRandomReadEnd s
  | .acknowledgePollingEnd => Sys2Proof.Machine.execAcknowledgePollingEnd s
  | .missingAcknowledge => Sys2Proof.Machine.execMissingAcknowledge s
  | .pollingWindowExpiry => Sys2Proof.Machine.execPollingWindowExpiry s
  | .powerLoss => Sys2Proof.Machine.execPowerLoss s
  | .dataByteAcknowledge => Sys2Proof.Machine.execDataByteAcknowledge s

end Sys2Proof.Machine
end

