-- ==== Sys2Proof/Safety.lean ====
section
/-! DEFINITION. When the Request Port judges a request, and the laws that every step keeps, in the terms the claims
use. -/

namespace Sys2Proof.Machine

/-- The Request Port takes a READ or a MARK and judges it: RUNNING, port ACTIVE, no READ held, LRST_N released
(R1, R3). -/
def Serving (s : State) : Prop :=
  s.power = .up ∧ s.op = .running ∧ s.mp.port = .active ∧ s.lines.lrst = false ∧ s.held = none

/-- The Request Port takes a WRITE and judges it: the Posted Write Queue is not full either (R1). -/
def ServingWrite (s : State) : Prop := Serving s ∧ s.posted.entries.length < 16

/-- The RAM and the EEPROM are held in canonical form. -/
def MemoriesCanonical (s : State) : Prop := s.mem.wf = true ∧ s.eeprom.wf = true

/-- The slot states that keep claims (R60). -/
def SlotState.claims : SlotState → Bool
  | .filling | .ready | .queued | .sealing | .sealed | .applying => true
  | .free | .aborted => false

/-- No memory word is claimed twice, and each staging entry in use belongs to a slot that keeps claims (R55, R60). -/
def ClaimsSound (s : State) : Prop :=
  (∀ (i j : Fin 96) (e f : StagingEntry), s.pool[i] = some e → s.pool[j] = some f → e.word = f.word → i = j) ∧
  (∀ (i : Fin 96) (e : StagingEntry), s.pool[i] = some e → (s.slot e.slot).state.claims = true)

/-- The Posted Write Queue holds at most sixteen entries (R91). -/
def QueueBounded (s : State) : Prop := s.posted.entries.length ≤ 16

/-- A QUIESCED port has nothing in flight and no warning pending; a pending warning waits for an operation in flight
(R151, R152). -/
def PortSound (s : State) : Prop :=
  (s.mp.port = .quiesced → s.mp.inFlight = none ∧ s.mp.warning = false) ∧
  (s.mp.warning = true → s.mp.inFlight ≠ none)

/-- The ring fill does not exceed the ring size, and the sequence counter is not 0 (R111, R119). -/
def RingSound (s : State) : Prop :=
  (∀ r : Region, s.region = some r → s.journal.fill ≤ r.size) ∧ s.journal.seqCounter ≠ 0

/-- The slot states in which a source is linked to the slot (R26). -/
def SlotState.linked : SlotState → Bool
  | .filling | .ready | .aborted => true
  | .free | .queued | .sealing | .sealed | .applying => false

/-- The laws of R26 and R126: a linked slot is FILLING, READY or ABORTED and its owner is the linked source; each such
slot is linked from its owner; the Commit Queue lists the QUEUED slots once each, the Apply Queue the SEALED ones; one
slot at most is SEALING; the applying slot is the one that is APPLYING. -/
def GroupsSound (s : State) : Prop :=
  (∀ (src : Source) (k : SlotId), (s.source src).link = some k →
    (s.slot k).state.linked = true ∧ (s.slot k).owner = some src) ∧
  (∀ k : SlotId, (s.slot k).state.linked = true →
    ∃ src : Source, (s.slot k).owner = some src ∧ (s.source src).link = some k) ∧
  (s.journal.commitQueue.Nodup ∧ ∀ k : SlotId, k ∈ s.journal.commitQueue ↔ (s.slot k).state = .queued) ∧
  (s.apply.queue.Nodup ∧ ∀ k : SlotId, k ∈ s.apply.queue ↔ (s.slot k).state = .sealed) ∧
  (∀ k : SlotId, (s.slot k).state = .applying ↔ ∃ p : Phase, s.apply.applying = some (k, p)) ∧
  (∀ j k : SlotId, (s.slot j).state = .sealing → (s.slot k).state = .sealing → j = k)

/-- The laws of R10 for the Window Table in use: the pages of a present window are in order and in range, the present
windows are apart upstream and in memory, and none reaches into the journal region in use. -/
def TableSound (s : State) : Prop :=
  (∀ i : WindowId, s.windows[i].present = true →
    s.windows[i].base ≤ s.windows[i].limit ∧ s.windows[i].limit ≤ 4095 ∧
    s.windows[i].target + (s.windows[i].limit - s.windows[i].base) ≤ 4095 ∧
    ∃ r : Region, s.region = some r ∧
      (4096 * (s.windows[i].target + (s.windows[i].limit - s.windows[i].base) + 1) ≤ r.base ∨
        r.base + r.size ≤ 4096 * s.windows[i].target)) ∧
  (∀ i j : WindowId, i ≠ j → s.windows[i].present = true → s.windows[j].present = true →
    (s.windows[i].limit < s.windows[j].base ∨ s.windows[j].limit < s.windows[i].base) ∧
    (s.windows[i].target + (s.windows[i].limit - s.windows[i].base) < s.windows[j].target ∨
      s.windows[j].target + (s.windows[j].limit - s.windows[j].base) < s.windows[i].target))

/-- The accounting of R55 and R56: a slot's list is within its reservation, a slot that keeps no claims reserves nothing,
a FILLING slot's list and its writes still to come are within its reservation, and the reservations of the four slots
together are at most the ninety-six entries. -/
def ReservationsSound (s : State) : Prop :=
  (∀ k : SlotId, s.slotLen k ≤ (s.slot k).reservation) ∧
  (∀ k : SlotId, (s.slot k).state.claims = false → (s.slot k).reservation = 0) ∧
  (∀ k : SlotId, (s.slot k).state = .filling →
    ∃ n, (s.slot k).remaining = some (n + 1) ∧ s.slotLen k + n + 1 ≤ (s.slot k).reservation) ∧
  (s.slot 0).reservation + (s.slot 1).reservation + (s.slot 2).reservation + (s.slot 3).reservation ≤ 96

/-- The write that drain has in flight is the one that the WRITING head entry holds (R97). -/
def DrainSound (s : State) : Prop :=
  ∀ op, s.mp.inFlight = some { requester := .rotor .drain, op } →
    ∃ e rest, s.posted.entries = e :: rest ∧ e.writing = true ∧ op = .write e.word e.mask e.data

/-- The write that the seal has in flight is the first of those still to be made, all lanes of it; and writes are still
to be made while a slot is SEALING, and then only (R121, R124). -/
def SealSound (s : State) : Prop :=
  (∀ op, s.mp.inFlight = some { requester := .rotor .sealer, op } →
    ∃ a w rest, s.journal.sealWrites = (a, w) :: rest ∧ op = .write a 15 w) ∧
  (s.journal.sealWrites ≠ [] ↔ ∃ k, (s.slot k).state = .sealing)

/-- The journal and apply work is over: no committed group waits, is sealed or is applied. -/
def WorkOver (s : State) : Prop :=
  s.journal.commitQueue = [] ∧ s.journal.sealWrites = [] ∧ s.apply = { queue := [], applying := none }

/-- The operation in flight is what its requester asked for: the held READ's word, if its READ still stands (R4, R105);
the head entry's bytes; the seal's next word; the home write or retire mark that is due (R133, R134); in RECOVERING the
scanner's read or write (R150, R165, R167). Nothing is in flight without power, and the work of the Journal and Apply
Engines is over without power and in every state but RUNNING and RELOAD's wait (R157, R174). -/
def FlightSound (s : State) : Prop :=
  (∀ op, s.mp.inFlight = some { requester := .rotor .read, op } →
    ∃ w, op = .read w ∧ ∀ h, s.held = some h → h.granted = true → h.word = w) ∧
  DrainSound s ∧ SealSound s ∧
  (∀ op, s.mp.inFlight = some { requester := .rotor .apply, op } → s.nextOp .apply = some op) ∧
  (∀ op, s.mp.inFlight = some { requester := .scanner, op } → s.op = .recovering ∧ s.scannerOp = some op) ∧
  (s.power ≠ .up → s.mp.inFlight = none ∧ WorkOver s) ∧
  (s.op ≠ .running → (s.op = .reloading → s.guardsCleared = true) → WorkOver s)

end Sys2Proof.Machine
end

