-- ==== Sys2Proof/Certificates/Slice0/Obligations.lean ====
section
/-! DEFINITION. The claims about the WG416. Each docstring names the rules that the claim formalises. -/

open Sys2Proof Sys2Proof.Machine

/-! ### The queue, the clock, reset -/

/-- With a command at the front of the queue, a step is that command on the state with the queue's rest. -/
def Obligations.StepRunsTheFrontCommand : Prop :=
  ∀ (c : Instr) (rest : List Instr) (s : State),
    step { s with pending := c :: rest } = exec c { s with pending := rest }

/-- Every command answers a next state, and leaves the queue of commands as it is. -/
def Obligations.EveryCommandCompletes : Prop :=
  ∀ (c : Instr) (s : State), ∃ t : State, exec c s = .next t ∧ t.pending = s.pending

/-- An empty queue is one CLK cycle (the model's choice, log 1): the divider counts it, and a divider's worth of cycles
is a tick (R86).

TICK: the count starts anew, the tick reaches the hold and collect timers (HoldsAndNoticesExpire), and it reaches the
polling timer of the Configuration Link, which runs in every operating state and while QUIESCED: the timer advances, and
at 20,000 the operation ends in error, with the error flag and CFG-ERROR set, at that tick. The cell of an EEPROM-WRITE
or of the flags byte then holds the old byte or the new one, that of the check byte the old one (R86, R186 to R188;
log 10). That the table's expiry commands are this tick as it reaches one timer is the model's reading (log 12). -/
def Obligations.ClockAndTicks : Prop :=
  (∀ s : State, s.pending = [] →
     (s.power ≠ .up → step s = .next { s with bus := .none }) ∧
     (s.power = .up → s.time.count + 1 < s.time.divider →
       step s = .next { s with bus := .none, time := { s.time with count := s.time.count + 1 } }) ∧
     (s.power = .up → s.time.divider ≤ s.time.count + 1 → step s = exec .tick s)) ∧
  (∀ s : State,
     (s.power ≠ .up → exec .tick s = .next { s with bus := .none }) ∧
     (s.power = .up → exec .tick s = .next
       (State.tickLink (State.tickSources { s with bus := .none, time := { s.time with count := 0 } })))) ∧
  (∀ s : State,
     let polled := fun (op : LinkOp) => { s with cl := { s.cl with op := some op } }
     let failed := fun (eeprom : Memory) (freeCount : Nat) =>
       State.endReloadWait ({ s with eeprom, freeCount,
                                     cl := { s.cl with op := none, error := true } }.setFlag .cfgError)
     (s.cl.op.bind LinkOp.polledCell = none → s.tickLink = s) ∧
     (∀ a d n, s.cl.op = some (.write a d (.polling n)) →
       (n + 1 < 20000 → s.tickLink = polled (.write a d (.polling (n + 1)))) ∧
       (20000 ≤ n + 1 → ∃ eeprom, (eeprom = s.eeprom ∨ eeprom = s.eeprom.set a.toNat d) ∧
         s.tickLink = failed eeprom (s.freeCount + 1))) ∧
     (∀ w v f c n, s.cl.op = some (.guardWriteFlags w v f c (.polling n)) →
       (n + 1 < 20000 → s.tickLink = polled (.guardWriteFlags w v f c (.polling (n + 1)))) ∧
       (20000 ≤ n + 1 → ∃ eeprom, (eeprom = s.eeprom ∨ eeprom = s.eeprom.set (22 + 7 * w.val) f) ∧
         s.tickLink = failed eeprom (s.freeCount + 1))) ∧
     (∀ w v c n, s.cl.op = some (.guardWriteCheck w v c (.polling n)) →
       (n + 1 < 20000 → s.tickLink = polled (.guardWriteCheck w v c (.polling (n + 1)))) ∧
       (20000 ≤ n + 1 → s.tickLink = failed s.eeprom s.freeCount)))

/-- The reset values that R157 names. -/
def Obligations.ResetValues : Prop :=
  (∀ k, State.reset.slot k = Slot.empty) ∧ (∀ i : Fin 96, State.reset.pool[i] = none) ∧
  State.reset.journal.commitQueue = [] ∧ State.reset.apply = { queue := [], applying := none } ∧
  (∀ i, State.reset.source i = { link := none, hold := none, completion := none, epoch := 0 }) ∧
  State.reset.posted.entries = [] ∧ State.reset.posted.nextStamp = 0 ∧
  (∀ k : SlotId, State.reset.posted.barriers[k] = none) ∧
  State.reset.journal.head = 0 ∧ State.reset.journal.tail = 0 ∧ State.reset.journal.fill = 0 ∧
  State.reset.journal.seqCounter = 1 ∧ State.reset.journal.ringWait = false ∧ State.reset.region = none ∧
  State.reset.mp = { port := .active, inFlight := none, warning := false, rotation := .read } ∧
  (∀ i : WindowId, State.reset.windows[i].present = false ∧ State.reset.windows[i].runtimeGuard = false) ∧
  State.reset.time.divider = 1 ∧ State.reset.time.holdLimit = 65535 ∧ State.reset.time.collectLimit = 65535 ∧
  (∀ f, State.reset.flag f = false) ∧ (∀ c, State.reset.counter c = 0) ∧ State.reset.ml.alertMask = 0 ∧
  State.reset.ml.guardLock = false ∧ State.reset.ml.lastFault = none ∧ State.reset.ml.lastEnd = none ∧
  State.reset.cl.op = none ∧ State.reset.cl.error = false ∧ State.reset.scanner.activity = .idle ∧
  State.reset.held = none ∧ State.reset.ready = false ∧ State.reset.alert = false

/-- POWER_ON_RESET and POWER_LOSS: every piece of state of the part takes its reset value; the word of a RAM write in
flight is left whole old or whole new, every other byte of the RAM as it was (R147, R154, R157); the cell of an EEPROM
write that was being polled for finishes or does not, every other byte of the EEPROM as it was (R189). The lines keep
their levels; that the loss takes effect at once is the model's choice (log 23).

END_OF_POWER_ON_RESET from the reset values: LOADING; with PFAIL_N asserted, the port is QUIESCED and POWER-WARN is
set (R154, R157). -/
def Obligations.PowerAndReset : Prop :=
  (∀ (s : State) (c : Instr) (p : Power), (c = .powerOnReset ∧ p = .inReset) ∨ (c = .powerLoss ∧ p = .off) →
     ∃ t : State, exec c s = .next t ∧
       t = { State.reset with pending := s.pending, lines := s.lines, power := p, mem := t.mem, eeprom := t.eeprom,
                              freeCount := t.freeCount } ∧
       (∀ r word mask data, s.mp.inFlight = some { requester := r, op := .write word mask data } →
         t.mem = s.mem ∨ t.mem = s.mem.writeWord word mask data) ∧
       ((∀ r word mask data, s.mp.inFlight ≠ some { requester := r, op := .write word mask data }) → t.mem = s.mem) ∧
       (∀ a b, s.cl.op.bind LinkOp.polledCell = some (a, b) → t.eeprom = s.eeprom ∨ t.eeprom = s.eeprom.set a b) ∧
       (s.cl.op.bind LinkOp.polledCell = none → t.eeprom = s.eeprom)) ∧
  (∀ s : State, s.power = .inReset → s.mp = State.reset.mp → s.held = none →
     (s.lines.pfail = false →
       exec .endOfPowerOnReset s = .next { s with bus := .none, power := .up, op := .loading }) ∧
     (s.lines.pfail = true →
       exec .endOfPowerOnReset s = .next
         ({ s with bus := .none, power := .up, op := .loading,
                   mp := { s.mp with port := .quiesced, warning := false } }.setFlag .powerWarn)))

/-! ### The load -/

/-- END_OF_LOAD of a valid image: all of it is installed at once and the state becomes RECOVERING; the sequence counter,
the runtime guards, flags, counters and records stay (R9, R110, R150, R161, R164).

END_OF_LOAD of a failed load, by a missed acknowledge or a test of the image: UNCONFIGURED, no entry present with
the runtime guards kept, no region, pointers 0 and counter 1, CFG-ERROR set; the divider, limits and alert mask keep
their values (R9, R162). -/
def Obligations.LoadInstallsOrFails : Prop :=
  (∀ s : State, s.power = .up → s.op = .loading → s.imageValid = true →
     exec (.endOfLoad true) s = .next (State.grant
       { s with
         bus := .none
         windows := Vector.ofFn fun i => s.imageWindow i s.windows[i].runtimeGuard
         region := some { base := 256 * s.imageTwo 9, size := 256 * s.imageTwo 11 }
         journal := { s.journal with head := 0, tail := 0, fill := 0 }
         time := { divider := (s.imageByte 4).toNat + 1, count := 0, holdLimit := s.imageTwo 5,
                   collectLimit := s.imageTwo 7 }
         ml := { s.ml with alertMask := BitVec.ofNat 9 (s.imageTwo 13) }
         op := .recovering
         mp := { s.mp with rotation := .read }
         scanner := { activity := .scanning, pass := 1, offset := 0, buffer := [], chosen := none, highest := none,
                      damage := false } })) ∧
  (∀ (s : State) (acknowledged : Bool), s.power = .up → s.op = .loading →
     (acknowledged = false ∨ s.imageValid = false) →
     ∃ t : State, exec (.endOfLoad acknowledged) s = .next t ∧
       t = { s with bus := .none, windows := t.windows, region := none, op := .unconfigured,
                    journal := { s.journal with head := 0, tail := 0, fill := 0, seqCounter := 1 }, ml := t.ml } ∧
       (∀ i : WindowId, t.windows[i] = { s.windows[i] with present := false }) ∧
       t.ml = { s.ml with flags := t.ml.flags } ∧ t.flag .cfgError = true ∧
       ∀ f, f ≠ .cfgError → t.flag f = s.flag f)

/-- The image of the EEPROM is valid exactly when it passes every test: marker, version, length, sum of the 72 bytes,
the two limits from 16, the journal region of 4 to 256 units within the 16 MiB, and for the present windows pages in
order and in range, upstream ranges apart, target ranges apart from each other and from the journal region (R159, R160,
R192). The bytes of a window are decoded by its flags byte; those of a window that is not present are not (log 26).

A single changed byte of a valid image makes it invalid, the check byte apart or not (R160). -/
def Obligations.ImageTests : Prop :=
  (∀ s : State,
     let byte := fun i => (s.eeprom.get i).toNat
     let two := fun i => byte i + 256 * byte (i + 1)
     let w := fun i : WindowId => s.imageWindow i false
     (s.imageValid = true ↔
       byte 0 = 0x6A ∧ byte 1 = 0x4B ∧ byte 2 = 1 ∧ byte 3 = 72 ∧ ((List.range 72).map byte).sum % 256 = 0 ∧
       16 ≤ two 5 ∧ 16 ≤ two 7 ∧ 4 ≤ two 11 ∧ two 11 ≤ 256 ∧ 256 * two 9 + 256 * two 11 ≤ 16777216 ∧
       (∀ i, (w i).present = true →
         (w i).base ≤ (w i).limit ∧ (w i).limit ≤ 4095 ∧ (w i).target + ((w i).limit - (w i).base) ≤ 4095 ∧
         (4096 * ((w i).target + ((w i).limit - (w i).base) + 1) ≤ 256 * two 9 ∨
           256 * two 9 + 256 * two 11 ≤ 4096 * (w i).target)) ∧
       (∀ i j, i ≠ j → (w i).present = true → (w j).present = true →
         ((w i).limit < (w j).base ∨ (w j).limit < (w i).base) ∧
         ((w i).target + ((w i).limit - (w i).base) < (w j).target ∨
           (w j).target + ((w j).limit - (w j).base) < (w i).target))) ∧
     (∀ (i : WindowId) (g : Bool),
       let flags := s.eeprom.get (22 + 7 * i.val)
       (flags.getLsbD 1 = true → s.imageWindow i g =
         { present := true, base := two (16 + 7 * i.val), limit := two (18 + 7 * i.val),
           target := two (20 + 7 * i.val), grouped := flags.getLsbD 2, loose := flags.getLsbD 0,
           combine := flags.getLsbD 4, storedGuard := flags.getLsbD 3, pinGuard := flags.getLsbD 5,
           runtimeGuard := g }) ∧
       (flags.getLsbD 1 = false →
         (s.imageWindow i g).present = false ∧ (s.imageWindow i g).runtimeGuard = g))) ∧
  (∀ (s : State) (i : Nat) (b : Byte), s.eeprom.wf = true → s.imageValid = true → i < 72 → b ≠ s.imageByte i →
    ({ s with eeprom := s.eeprom.set i b } : State).imageValid = false)

/-- In an installed table that is sound, every reachable memory word has exactly one upstream name: two addresses that
are not hidden and reach one memory word are one address; and a translated address is never hidden and never in the
journal region (R10, R11, R13).

In every table, the lookup finds a present window that contains the address's page, if there is one. It takes the
window's attributes, and the window is guarded when its stored guard is on, or its runtime guard, or its pin guard with
GUARD_N asserted. An address in no window is an identity address: its own memory word, unguarded, and hidden exactly when
it lies in the journal region in use or its page in the target range of a present window (R8, R11 to R13, R18). -/
def Obligations.OneUpstreamNameForEachWord : Prop :=
  (∀ s : State, TableSound s →
    (∀ a b : Addr, (s.lookup a).hidden = false → (s.lookup b).hidden = false → (s.lookup a).word = (s.lookup b).word →
      a = b) ∧
    (∀ (a : Addr) (i : WindowId), (s.lookup a).window = some i →
      (s.lookup a).hidden = false ∧ s.inRegion (s.lookup a).word.toNat = false ∧
      (s.lookup a).word.toNat = a.toNat - 4096 * s.windows[i].base + 4096 * s.windows[i].target)) ∧
  (∀ (s : State) (a : Addr),
    let page := a.toNat / 4096
    let guarded := fun (w : Window) => w.storedGuard || w.runtimeGuard || (w.pinGuard && s.lines.guard)
    (∀ i : WindowId, s.windowGuarded i = guarded s.windows[i]) ∧
    (∀ i : WindowId, (s.lookup a).window = some i →
      s.windows[i].present = true ∧ s.windows[i].base ≤ page ∧ page ≤ s.windows[i].limit ∧
      (s.lookup a).hidden = false ∧ (s.lookup a).guarded = guarded s.windows[i] ∧
      (s.lookup a).grouped = s.windows[i].grouped ∧ (s.lookup a).loose = s.windows[i].loose ∧
      (s.lookup a).combine = s.windows[i].combine) ∧
    ((s.lookup a).window = none ↔
      ∀ i : WindowId, s.windows[i].present = true → page < s.windows[i].base ∨ s.windows[i].limit < page) ∧
    ((s.lookup a).window = none →
      (s.lookup a).word = a ∧ (s.lookup a).guarded = false ∧ (s.lookup a).combine = false ∧
      (s.lookup a).grouped = false ∧ (s.lookup a).loose = true ∧
      ((s.lookup a).hidden = true ↔
        (∃ r : Region, s.region = some r ∧ r.base ≤ a.toNat ∧ a.toNat < r.base + r.size) ∨
        ∃ i : WindowId, s.windows[i].present = true ∧ s.windows[i].target ≤ page ∧
          page ≤ s.windows[i].target + (s.windows[i].limit - s.windows[i].base))))

/-! ### Requests before their judgement -/

/-- A request that the Request Port does not take waits on the bus and changes nothing else: power-on reset, LRST_N, a
held READ, and for a WRITE a full queue (R1, R100). That a wait shows on the bus output is the model's (log 2); a WRITE
and a COMMIT bring the level of GUARD_N (log 4).

A request taken while the port is QUIESCED, or in LOADING, RECOVERING or RELOADING, is answered RETRY and changes
nothing else: no hold record, no abandoned notice (R3).

In UNCONFIGURED with the port ACTIVE, every request taken is answered FAULT UNCONFIGURED and replaces the last-fault
record; nothing else changes (R3, R6, R163). -/
def Obligations.RequestsNotJudged : Prop :=
  (∀ (s : State) (src : Source) (addr : Addr) (mask : Mask) (data : Word) (arg : Byte) (code : BitVec 4) (g : Bool),
     (s.power ≠ .up ∨ s.lines.lrst = true ∨ s.held ≠ none →
       exec (.read src addr) s = .next { s with bus := .waits src } ∧
       exec (.openMark src arg) s = .next { s with bus := .waits src } ∧
       exec (.commitMark src arg g) s = .next { s with bus := .waits src, lines := { s.lines with guard := g } } ∧
       exec (.discardMark src arg) s = .next { s with bus := .waits src } ∧
       exec (.orderMark src arg) s = .next { s with bus := .waits src } ∧
       exec (.flushMark src arg) s = .next { s with bus := .waits src } ∧
       exec (.badMark src code arg) s = .next { s with bus := .waits src }) ∧
     (s.power ≠ .up ∨ s.lines.lrst = true ∨ s.held ≠ none ∨ 16 ≤ s.posted.entries.length →
       exec (.write src addr mask data g) s =
         .next { s with bus := .waits src, lines := { s.lines with guard := g } })) ∧
  (∀ (s : State) (src : Source) (addr : Addr) (mask : Mask) (data : Word) (arg : Byte) (code : BitVec 4) (g : Bool),
     s.power = .up → s.lines.lrst = false → s.held = none →
     (s.mp.port = .quiesced ∨ s.op = .loading ∨ s.op = .recovering ∨ s.op = .reloading) →
       exec (.read src addr) s = .next { s with bus := .answer src .retry } ∧
       exec (.openMark src arg) s = .next { s with bus := .answer src .retry } ∧
       exec (.commitMark src arg g) s =
         .next { s with bus := .answer src .retry, lines := { s.lines with guard := g } } ∧
       exec (.discardMark src arg) s = .next { s with bus := .answer src .retry } ∧
       exec (.orderMark src arg) s = .next { s with bus := .answer src .retry } ∧
       exec (.flushMark src arg) s = .next { s with bus := .answer src .retry } ∧
       exec (.badMark src code arg) s = .next { s with bus := .answer src .retry } ∧
       (s.posted.entries.length < 16 →
         exec (.write src addr mask data g) s =
           .next { s with bus := .answer src .retry, lines := { s.lines with guard := g } })) ∧
  (∀ (s : State) (src : Source) (addr : Addr) (mask : Mask) (data : Word) (arg : Byte) (code : BitVec 4) (g : Bool),
     s.power = .up → s.lines.lrst = false → s.held = none → s.mp.port = .active → s.op = .unconfigured →
     let faulted := fun (x : State) (kind : RequestKind) (a : Addr) =>
       { x with bus := .answer src (.fault .unconfigured),
                ml := { s.ml with lastFault := some { source := src, kind, addr := a, code := .unconfigured } } }
     exec (.read src addr) s = .next (faulted s .read addr) ∧
     exec (.openMark src arg) s = .next (faulted s .openMark 0) ∧
     exec (.commitMark src arg g) s = .next (faulted (s.sampleGuard g) .commit 0) ∧
     exec (.discardMark src arg) s = .next (faulted s .discard 0) ∧
     exec (.orderMark src arg) s = .next (faulted s .order 0) ∧
     exec (.flushMark src arg) s = .next (faulted s .flush 0) ∧
     exec (.badMark src code arg) s = .next (faulted s .mark 0) ∧
     (s.posted.entries.length < 16 →
       exec (.write src addr mask data g) s = .next (faulted (s.sampleGuard g) .write addr)))

/-- The form faults: an unaligned READ or WRITE, a WRITE of mask 0, and a MARK with an unknown code. Each clears the
source's hold record and replaces the last-fault record, and changes nothing else: not the slot, the entries, the claims,
the completion record or the Posted Write Queue (R5, R6). BADMARK's own effect is its fault. -/
def Obligations.FormFaults : Prop :=
  ∀ (s : State) (src : Source) (addr : Addr) (mask : Mask) (data : Word) (arg : Byte) (code : BitVec 4) (g : Bool),
    Serving s →
    let faulted := fun (x : State) (kind : RequestKind) (a : Addr) (f : FaultCode) =>
      { x.setSource src { s.source src with hold := none } with
        bus := .answer src (.fault f),
        ml := { s.ml with lastFault := some { source := src, kind, addr := a, code := f } } }
    (addr.toNat % 4 ≠ 0 → exec (.read src addr) s = .next (faulted s .read addr .align)) ∧
    (s.posted.entries.length < 16 → addr.toNat % 4 ≠ 0 →
      exec (.write src addr mask data g) s = .next (faulted (s.sampleGuard g) .write addr .align)) ∧
    (s.posted.entries.length < 16 → addr.toNat % 4 = 0 →
      exec (.write src addr 0 data g) s = .next (faulted (s.sampleGuard g) .write addr .mask)) ∧
    exec (.badMark src code arg) s = .next (faulted s .mark 0 .badMark)

/-! ### READ -/

/-- A READ that passes its checks is held in the port while its word read is asked; a READ of a hidden word is answered
FAULT HIDDEN. Either clears the source's hold record (R5, R13, R71, R105). No guard, mode or attribute refuses it. -/
def Obligations.ReadIsHeldOrHidden : Prop :=
  ∀ (s : State) (src : Source) (addr : Addr), Serving s → addr.toNat % 4 = 0 →
    ((s.lookup addr).hidden = false →
      exec (.read src addr) s = .next (State.grant
        { s.setSource src { s.source src with hold := none } with
          bus := .held src,
          held := some { source := src, addr, word := (s.lookup addr).word, granted := false } })) ∧
    ((s.lookup addr).hidden = true →
      exec (.read src addr) s = .next
        { s.setSource src { s.source src with hold := none } with
          bus := .answer src (.fault .hidden),
          ml := { s.ml with lastFault := some { source := src, kind := .read, addr, code := .hidden } } })

/-- READ_COMPOSITION: the held READ is answered at the completion of its word read, DONE with the composed data, or
FAULT PARITY with the fault flagged, counted and recorded; a read whose READ has gone is discarded (R4, R105, R106,
R108), its parity indication with its data, which is the model's reading (log 17).
The queue, the pool and the RAM stay but for what follows every completion (`settle`). -/
def Obligations.ReadCompositionAnswersTheRead : Prop :=
  ∀ (s : State) (w : Addr), s.mp.inFlight = some { requester := .rotor .read, op := .read w } →
    (∀ h : HeldRead, s.held = some h → h.granted = true →
      exec (.readComposition false) s = .next (State.settle
        { s with mp := { s.mp with inFlight := none }, held := none,
                 bus := .answer h.source (.done (s.composeRead h.source h.word (s.mem.readWord w))) }) ∧
      exec (.readComposition true) s = .next (State.settle
        { (s.count .parityFaults).setFlag .parity with
          mp := { s.mp with inFlight := none }, held := none,
          bus := .answer h.source (.fault .parity),
          ml := { ((s.count .parityFaults).setFlag .parity).ml with
            lastFault := some { source := h.source, kind := .read, addr := h.addr, code := .parity } } })) ∧
    (∀ p, (∀ h : HeldRead, s.held = some h → h.granted = false) →
      exec (.readComposition p) s = .next (State.settle
        { s with mp := { s.mp with inFlight := none }, bus := .none }))

/-- Each lane of a composed word comes from the staged entry the reader may see, else from the youngest posted entry for
the word that covers the lane, else from memory (R106).

Which staged bytes a reader sees, by the state of the claiming slot: FILLING and READY the source linked to it,
QUEUED and SEALING nobody, SEALED and APPLYING every reader (R64). -/
def Obligations.WhatAReadSees : Prop :=
  (∀ (s : State) (src : Source) (word : Addr) (memory : Word) (k : Fin 4),
     lane (s.composeRead src word memory) k =
       let posted :=
         match (s.posted.entries.filter fun e => decide (e.word = word) && e.mask.getLsbD k.val).getLast? with
         | some e => lane e.data k
         | none => lane memory k
       match s.overlayFor src word with
       | some e => if e.mask.getLsbD k.val then lane e.data k else posted
       | none => posted) ∧
  (∀ (s : State) (src : Source) (word : Addr),
     (s.claimOf word = none → s.overlayFor src word = none) ∧
     ∀ e : StagingEntry, s.claimOf word = some e →
       ((s.slot e.slot).state = .filling ∨ (s.slot e.slot).state = .ready →
         s.overlayFor src word = if (s.source src).link = some e.slot then some e else none) ∧
       ((s.slot e.slot).state = .queued ∨ (s.slot e.slot).state = .sealing → s.overlayFor src word = none) ∧
       ((s.slot e.slot).state = .sealed ∨ (s.slot e.slot).state = .applying → s.overlayFor src word = some e))

/-! ### Loose writes -/

/-- A loose write is refused by the first check that fails: hidden, loose writes not allowed, guard. The hold record is
cleared, the last-fault record replaced, a guard refusal counted and flagged; nothing else changes (R19, R20, R22).

A loose write that reaches the claim check of a claimed word is held with a fresh record, or held on with its timer
going on; with its hold EXPIRED it is answered FAULT CONFLICT, claimed or not (R19, R20, R62, R72, R74, R77). -/
def Obligations.LooseWriteRefusedOrHeld : Prop :=
  (∀ (s : State) (src : Source) (addr : Addr) (mask : Mask) (data : Word) (g : Bool), ServingWrite s →
     addr.toNat % 4 = 0 → mask ≠ 0 → (s.source src).link = none →
     let s' := s.sampleGuard g
     let l := s'.lookup addr
     let refused := fun (x : State) (code : FaultCode) =>
       { x.setSource src { s.source src with hold := none } with
         bus := .answer src (.fault code),
         ml := { x.ml with lastFault := some { source := src, kind := .write, addr, code } } }
     (l.hidden = true → exec (.write src addr mask data g) s = .next (refused s' .hidden)) ∧
     (l.hidden = false → l.grouped = true → l.loose = false →
       exec (.write src addr mask data g) s = .next (refused s' .ungrouped)) ∧
     (l.hidden = false → (l.grouped = false ∨ l.loose = true) → l.guarded = true →
       exec (.write src addr mask data g) s =
         .next (refused ((s'.count .guardRefusals).setFlag .guardRefused) .guarded))) ∧
  (∀ (s : State) (src : Source) (addr : Addr) (mask : Mask) (data : Word) (g : Bool), ServingWrite s →
     addr.toNat % 4 = 0 → mask ≠ 0 → (s.source src).link = none →
     let s' := s.sampleGuard g
     let l := s'.lookup addr
     l.hidden = false → (l.grouped = false ∨ l.loose = true) → l.guarded = false →
     (∀ h : Hold, (s.source src).hold = some h → h.request.isWriteTo addr = true → h.expired = true →
       exec (.write src addr mask data g) s = .next
         { s'.setSource src { s.source src with hold := none } with
           bus := .answer src (.fault .conflict),
           ml := { s.ml with lastFault := some { source := src, kind := .write, addr, code := .conflict } } }) ∧
     (∀ (h : Hold) (e : StagingEntry), (s.source src).hold = some h → h.request.isWriteTo addr = true →
       h.expired = false → s.claimOf l.word = some e →
       exec (.write src addr mask data g) s = .next { s' with bus := .answer src .retry }) ∧
     (∀ e : StagingEntry, s.claimOf l.word = some e →
       (∀ h : Hold, (s.source src).hold = some h → h.request.isWriteTo addr = false) →
       exec (.write src addr mask data g) s = .next
         { s'.setSource src { s.source src with hold := some { request := .loose addr, expired := false, timer := 0 } }
           with bus := .answer src .retry }))

/-- A loose write that passes every check is answered DONE with data 0 at its arrival and its hold record is cleared. It
combines where the queue lets it, else it makes an entry at the tail: its bytes in the lanes of its mask, the source's
epoch, the window's permission, the next arrival stamp (R17, R19, R92, R93).

Combining takes the youngest entry for the word, and only if it is of the source and of its present epoch, carries
permission and is not WRITING; the lanes of the mask are replaced, the masks united, and every other field and entry
kept, the places with them (R93, R94). -/
def Obligations.LooseWriteIsPosted : Prop :=
  (∀ (s : State) (src : Source) (addr : Addr) (mask : Mask) (data : Word) (g : Bool), ServingWrite s →
     addr.toNat % 4 = 0 → mask ≠ 0 → (s.source src).link = none →
     let s' := s.sampleGuard g
     let l := s'.lookup addr
     l.hidden = false → (l.grouped = false ∨ l.loose = true) → l.guarded = false → s.claimOf l.word = none →
     (∀ h : Hold, (s.source src).hold = some h → h.request.isWriteTo addr = true → h.expired = false) →
     let accepted := fun (entries : List PostedEntry) (nextStamp : Stamp) =>
       State.grant { s'.setSource src { s.source src with hold := none } with
         bus := .answer src (.done 0), posted := { s.posted with entries, nextStamp } }
     (∀ entries, l.combine = true →
       combineInto src (s.source src).epoch l.word mask data s.posted.entries = some entries →
       exec (.write src addr mask data g) s = .next (accepted entries s.posted.nextStamp)) ∧
     (l.combine = false ∨ combineInto src (s.source src).epoch l.word mask data s.posted.entries = none →
       exec (.write src addr mask data g) s = .next (accepted
         (s.posted.entries ++ [{ source := src, word := l.word, data := maskedData data mask, mask,
                                 epoch := (s.source src).epoch, combine := l.combine, stamp := s.posted.nextStamp,
                                 writing := false }])
         (s.posted.nextStamp + 1)))) ∧
  (∀ (src : Source) (epoch : Stamp) (word : Addr) (mask : Mask) (data : Word) (entries out : List PostedEntry),
     combineInto src epoch word mask data entries = some out ↔
       ∃ (before after : List PostedEntry) (e : PostedEntry), entries = before ++ e :: after ∧ e.word = word ∧
         (∀ x ∈ after, x.word ≠ word) ∧ e.source = src ∧ e.epoch = epoch ∧ e.combine = true ∧ e.writing = false ∧
         out = before ++ { e with data := mergeLanes e.data data mask, mask := e.mask ||| mask } :: after)

/-! ### Group writes -/

/-- A group write to a FILLING slot that passes the window, the guard and the claim is answered DONE and staged: a new
entry in the lowest free place for a word the slot has not staged, else a merge; the window is fixed by the first write,
the remaining count falls by one for either, and at 0 the slot is READY (R34 to R37, R57, R58).

The window judgement: while no window is fixed, the write passes when its lookup names a GROUPED window and is not
hidden; once one is fixed, when its lookup names that window (R34). -/
def Obligations.GroupWriteIsStaged : Prop :=
  (∀ (s : State) (src : Source) (k : SlotId) (n : Nat) (addr : Addr) (mask : Mask) (data : Word) (g : Bool),
     ServingWrite s → addr.toNat % 4 = 0 → mask ≠ 0 → (s.source src).link = some k → (s.slot k).state = .filling →
     (s.slot k).remaining = some (n + 1) →
     let s' := s.sampleGuard g
     let l := s'.lookup addr
     windowFits (s.slot k).window l = true → l.guarded = false →
     let staged := fun (pool : Pool) =>
       { s'.setSource src { s.source src with hold := none } with
         bus := .answer src (.done 0), pool,
         slots := s.slots.set k { s.slot k with
           window := if (s.slot k).window.isSome then (s.slot k).window else l.window, remaining := some n,
           state := if n = 0 then .ready else .filling } }
     (∀ i : Fin 96, s.claimOf l.word = none → s.pool[i] = none → (∀ j : Fin 96, j < i → s.pool[j] ≠ none) →
       exec (.write src addr mask data g) s = .next (staged (s.pool.set i (some
         { slot := k, word := l.word, data := maskedData data mask, mask, position := s.slotLen k })))) ∧
     (∀ e : StagingEntry, s.claimOf l.word = some e → e.slot = k →
       ∃ pool, exec (.write src addr mask data g) s = .next (staged pool) ∧
         ∀ i : Fin 96, pool[i] = s.pool[i].map fun x =>
           if x.slot = k ∧ x.word = l.word then { x with data := mergeLanes x.data data mask, mask := x.mask ||| mask }
           else x)) ∧
  (∀ l : Lookup,
     (windowFits none l = true ↔ (∃ i, l.window = some i) ∧ l.grouped = true ∧ l.hidden = false) ∧
     ∀ j, windowFits (some j) l = true ↔ l.window = some j)

/-- A group write held on the claim of another slot is answered RETRY; its slot is unchanged and its record is made, or
kept with its timer going on (R36, R62, R72, R74).

A group write to a READY slot, outside the group's window, or under a guard ends the group in an abort of cause
EXCESS, WINDOW or PROTECTED, in that order, and one to an ABORTED slot aborts nothing; each is answered FAULT ABORTED
and clears the hold record (R33 to R35, R39, R41). -/
def Obligations.GroupWriteHeldOrAborted : Prop :=
  (∀ (s : State) (src : Source) (k : SlotId) (addr : Addr) (mask : Mask) (data : Word) (g : Bool) (e : StagingEntry),
     ServingWrite s → addr.toNat % 4 = 0 → mask ≠ 0 → (s.source src).link = some k → (s.slot k).state = .filling →
     let s' := s.sampleGuard g
     let l := s'.lookup addr
     windowFits (s.slot k).window l = true → l.guarded = false → s.claimOf l.word = some e → e.slot ≠ k →
     (∀ h : Hold, (s.source src).hold = some h → h.request.isWriteTo addr = true → h.expired = false →
       exec (.write src addr mask data g) s = .next { s' with bus := .answer src .retry }) ∧
     ((∀ h : Hold, (s.source src).hold = some h → h.request.isWriteTo addr = false) →
       exec (.write src addr mask data g) s = .next
         { s'.setSource src { s.source src with hold := some { request := .group addr, expired := false, timer := 0 } }
           with bus := .answer src .retry })) ∧
  (∀ (s : State) (src : Source) (k : SlotId) (addr : Addr) (mask : Mask) (data : Word) (g : Bool),
     ServingWrite s → addr.toNat % 4 = 0 → mask ≠ 0 → (s.source src).link = some k →
     let s' := s.sampleGuard g
     let l := s'.lookup addr
     let answered := fun (x : State) =>
       { x.setSource src { s.source src with hold := none } with
         bus := .answer src (.fault .aborted),
         ml := { x.ml with lastFault := some { source := src, kind := .write, addr, code := .aborted } } }
     ((s.slot k).state = .aborted → exec (.write src addr mask data g) s = .next (answered s')) ∧
     ((s.slot k).state = .ready → exec (.write src addr mask data g) s = .next (answered (s'.abortGroup k .excess))) ∧
     ((s.slot k).state = .filling → windowFits (s.slot k).window l = false →
       exec (.write src addr mask data g) s = .next (answered (s'.abortGroup k .window))) ∧
     ((s.slot k).state = .filling → windowFits (s.slot k).window l = true → l.guarded = true →
       exec (.write src addr mask data g) s = .next (answered (s'.abortGroup k .guardProtected))))

/-- What an abort does: the slot is ABORTED with its owner and the cause and nothing else, its entries and its claims go
and no other entry does, and it is counted, flagged and recorded; PROTECTED is a guard refusal as well; the owner's link,
the RAM and everything else stay (R22, R39, R40, R66). -/
def Obligations.AbortFreesTheGroup : Prop :=
  ∀ (s : State) (k : SlotId) (cause : AbortCause), ∃ t : State, s.abortGroup k cause = t ∧
    t = { s with slots := t.slots, pool := t.pool, ml := { s.ml with flags := t.ml.flags, counters := t.ml.counters,
                                                                     lastEnd := t.ml.lastEnd } } ∧
    t.slot k = { Slot.empty with state := .aborted, owner := (s.slot k).owner, cause := some cause } ∧
    (∀ j, j ≠ k → t.slot j = s.slot j) ∧
    (∀ (i : Fin 96) (e : StagingEntry), t.pool[i] = some e ↔ s.pool[i] = some e ∧ e.slot ≠ k) ∧
    (∀ f, t.flag f =
      (s.flag f || decide (f = .groupAborted) || (decide (f = .guardRefused) && decide (cause = .guardProtected)))) ∧
    (∀ c, t.counter c =
      if c = .abortedGroups ∨ c = .guardRefusals ∧ cause = .guardProtected then saturatingSucc (s.counter c)
      else s.counter c) ∧
    t.ml.lastEnd = some { slot := k, source := (s.slot k).owner.getD 0, outcome := .aborted cause }

/-- The law of the guards: a WRITE whose window is guarded at its arrival enters neither the Posted Write Queue nor the
Staging Pool, and a COMMIT of a group whose window is guarded at its arrival commits nothing (R18). -/
def Obligations.NoGuardedWriteIsAccepted : Prop :=
  (∀ (s t : State) (src : Source) (addr : Addr) (mask : Mask) (data : Word) (g : Bool),
    ((s.sampleGuard g).lookup addr).guarded = true → exec (.write src addr mask data g) s = .next t →
      t.posted = s.posted ∧ ∀ (i : Fin 96) (e : StagingEntry), t.pool[i] = some e → s.pool[i] = some e) ∧
  (∀ (s t : State) (src : Source) (k : SlotId) (w : WindowId) (arg : Byte) (g : Bool),
    (s.source src).link = some k → (s.slot k).state ≠ .queued → (s.slot k).window = some w →
    (s.sampleGuard g).windowGuarded w = true → exec (.commitMark src arg g) s = .next t →
      t.journal.commitQueue = s.journal.commitQueue ∧ (t.slot k).state ≠ .queued)

/-! ### OPEN -/

/-- An OPEN from a source with no link whose declared count is 0 or above 32 is answered FAULT COUNT and takes, reserves
and abandons nothing; its hold record is cleared when the OPEN is a request different from the held one (R29). -/
def Obligations.IllegalCountIsFaulted : Prop :=
  ∀ (s : State) (src : Source) (n : Byte), Serving s → (s.source src).link = none →
    n.toNat = 0 ∨ 33 ≤ n.toNat →
    let faulted := fun (x : State) =>
      { x with bus := .answer src (.fault .count),
               ml := { s.ml with lastFault := some { source := src, kind := .openMark, addr := 0, code := .count } } }
    (∀ h : Hold, (s.source src).hold = some h → h.request = .openMark n →
      exec (.openMark src n) s = .next (faulted s)) ∧
    ((∀ h : Hold, (s.source src).hold = some h → h.request ≠ .openMark n) →
      exec (.openMark src n) s = .next (faulted (s.setSource src { s.source src with hold := none })))

/-- An OPEN of a legal count with a FREE slot and enough unreserved entries takes the lowest FREE slot, is answered DONE
with data 0 and clears the hold record; a completion record is abandoned and counted first (R30, R32, R83).

An OPEN of a legal count that cannot be served is held with cause SPACE, or held on, and answered RETRY; with its hold
EXPIRED it is answered FAULT NOSPACE and the record is cleared, whether or not it could be served now. A completion
record is abandoned and counted here as well (R31, R32, R77). -/
def Obligations.OpenIsServedOrHeld : Prop :=
  ∀ (s : State) (src : Source) (n : Byte), Serving s → (s.source src).link = none → 1 ≤ n.toNat → n.toNat ≤ 32 →
    let s' := if (s.source src).completion = none then s else s.count .abandonedNotices
    (∀ k : SlotId, (s.slot k).state = .free → (∀ j, j < k → (s.slot j).state ≠ .free) → n.toNat ≤ s.unreserved →
      (∀ h : Hold, (s.source src).hold = some h → h.request = .openMark n → h.expired = false) →
      exec (.openMark src n) s = .next
        { s'.setSource src { s.source src with hold := none, completion := none, link := some k } with
          bus := .answer src (.done 0),
          slots := s.slots.set k { state := .filling, owner := some src, declared := some n.toNat,
                                   remaining := some n.toNat, window := none, reservation := n.toNat, cause := none,
                                   seqNo := none, position := none, recordSize := none, cursor := none } }) ∧
    (∀ h : Hold, (s.source src).hold = some h → h.request = .openMark n → h.expired = true →
      exec (.openMark src n) s = .next
        { s'.setSource src { s.source src with hold := none, completion := none } with
          bus := .answer src (.fault .noSpace),
          ml := { s'.ml with lastFault := some { source := src, kind := .openMark, addr := 0, code := .noSpace } } }) ∧
    ((s.unreserved < n.toNat ∨ ∀ k, (s.slot k).state ≠ .free) →
      (∀ h : Hold, (s.source src).hold = some h → h.request = .openMark n → h.expired = false →
        exec (.openMark src n) s = .next
          { s'.setSource src { s.source src with completion := none } with bus := .answer src .retry }) ∧
      ((∀ h : Hold, (s.source src).hold = some h → h.request ≠ .openMark n) →
        exec (.openMark src n) s = .next
          { s'.setSource src { s.source src with
              hold := some { request := .openMark n, expired := false, timer := 0 }, completion := none }
            with bus := .answer src .retry }))

/-- An OPEN from the owner of a FILLING or READY slot aborts the group with cause NESTED, whatever the count, and one from
the owner of an ABORTED slot aborts nothing; each is answered FAULT ABORTED, opens nothing and abandons a completion
record first (R28, R32, R41, R42). -/
def Obligations.OpenFromALinkedSource : Prop :=
  ∀ (s : State) (src : Source) (n : Byte) (k : SlotId), Serving s → (s.source src).link = some k →
    let answered := fun (x : State) =>
      { x.setSource src { s.source src with hold := none, completion := none } with
        bus := .answer src (.fault .aborted),
        ml := { x.ml with lastFault := some { source := src, kind := .openMark, addr := 0, code := .aborted } } }
    let s' := if (s.source src).completion = none then s else s.count .abandonedNotices
    ((s.slot k).state = .filling ∨ (s.slot k).state = .ready →
      exec (.openMark src n) s = .next (answered (s'.abortGroup k .nested))) ∧
    ((s.slot k).state = .aborted → exec (.openMark src n) s = .next (answered s'))

/-! ### COMMIT -/

/-- Acceptance of the COMMIT of a READY group whose window is not guarded: the slot is QUEUED at the tail of the Commit
Queue with its reservation cut to its list, the link is cleared, a WAITING notice names the slot, the barrier point is
taken from the tail of the Posted Write Queue, and the answer is RETRY; the claims, the entries and the RAM stay. A
completion record is abandoned first; a ring-space wait may be found at once (R44, R45, R83, R102, R118). -/
def Obligations.CommitIsAccepted : Prop :=
  ∀ (s : State) (src : Source) (k : SlotId) (w : WindowId) (arg : Byte) (g : Bool), Serving s →
    (s.source src).link = some k → (s.slot k).state = .ready → (s.slot k).window = some w →
    (s.sampleGuard g).windowGuarded w = false →
    let s' := if (s.source src).completion = none then s else s.count .abandonedNotices
    exec (.commitMark src arg g) s = .next (State.noteRingWait
      { (s'.sampleGuard g).setSource src { s.source src with
          link := none, hold := none, completion := some { notice := .commit k, status := .waiting } } with
        bus := .answer src .retry,
        slots := s.slots.set k { s.slot k with state := .queued, remaining := none, reservation := s.slotLen k },
        journal := { s.journal with commitQueue := s.journal.commitQueue ++ [k] },
        posted := { s.posted with barriers := s.posted.barriers.set k (some
          (match s.posted.entries.getLast? with
           | none => .met
           | some e => .entry e.stamp)) } })

/-- A COMMIT that is not accepted: from the owner of a FILLING slot it aborts the group SHORT, under a guard it aborts it
PROTECTED, from the owner of an ABORTED slot it is answered FAULT ABORTED alone; with no link and no COMMIT notice it is
answered FAULT NO-GROUP, a FLUSH notice abandoned first (R41, R43, R44, R83). -/
def Obligations.CommitIsNotAccepted : Prop :=
  ∀ (s : State) (src : Source) (arg : Byte) (g : Bool), Serving s →
    let answered := fun (x : State) (code : FaultCode) =>
      { x.setSource src { s.source src with hold := none, completion := none } with
        bus := .answer src (.fault code),
        ml := { x.ml with lastFault := some { source := src, kind := .commit, addr := 0, code } } }
    let s' := (if (s.source src).completion = none then s else s.count .abandonedNotices).sampleGuard g
    (∀ k : SlotId, (s.source src).link = some k →
      ((s.slot k).state = .filling →
        exec (.commitMark src arg g) s = .next (answered (s'.abortGroup k .short) .aborted)) ∧
      (∀ w : WindowId, (s.slot k).state = .ready → (s.slot k).window = some w →
        (s.sampleGuard g).windowGuarded w = true →
        exec (.commitMark src arg g) s = .next (answered (s'.abortGroup k .guardProtected) .aborted)) ∧
      ((s.slot k).state = .aborted → exec (.commitMark src arg g) s = .next (answered s' .aborted))) ∧
    ((s.source src).link = none →
      (∀ c : Completion, (s.source src).completion = some c → ∃ stamps slots, c.notice = .flush stamps slots) →
      exec (.commitMark src arg g) s = .next (answered s' .noGroup))

/-- A repeated COMMIT or FLUSH is answered from its completion record: RETRY while it is WAITING, with no other effect
than the clearing of a hold record, and DONE with data 0 once it is READY, the record cleared (R82). -/
def Obligations.RepeatsAreAnsweredFromTheRecord : Prop :=
  ∀ (s : State) (src : Source) (arg : Byte) (g : Bool), Serving s →
    let waits := fun (x : State) =>
      { x.setSource src { s.source src with hold := none } with bus := .answer src .retry }
    let done := fun (x : State) =>
      { x.setSource src { s.source src with hold := none, completion := none } with bus := .answer src (.done 0) }
    (∀ k, (s.source src).link = none →
      ((s.source src).completion = some { notice := .commit k, status := .waiting } →
        exec (.commitMark src arg g) s = .next (waits (s.sampleGuard g))) ∧
      (∀ n, (s.source src).completion = some { notice := .commit k, status := .ready n } →
        exec (.commitMark src arg g) s = .next (done (s.sampleGuard g)))) ∧
    (∀ stamps slots,
      ((s.source src).completion = some { notice := .flush stamps slots, status := .waiting } →
        exec (.flushMark src arg) s = .next (waits s)) ∧
      (∀ n, (s.source src).completion = some { notice := .flush stamps slots, status := .ready n } →
        exec (.flushMark src arg) s = .next (done s)))

/-! ### DISCARD -/

/-- DISCARD of a FILLING or READY group (R47). -/
def Obligations.DiscardFreesAnOpenGroup : Prop :=
  ∀ (s : State) (src : Source) (reason : Byte) (k : SlotId), Serving s → (s.source src).link = some k →
    (s.slot k).state = .filling ∨ (s.slot k).state = .ready → (s.slot k).owner = some src →
    ∃ t : State, exec (.discardMark src reason) s = .next t ∧
      t = { (s.count .discardedGroups).setSource src { s.source src with hold := none, link := none } with
            bus := .answer src (.done 0), slots := s.slots.set k Slot.empty, pool := t.pool,
            ml := { (s.count .discardedGroups).ml with
              lastEnd := some { slot := k, source := src, outcome := .discarded reason } } } ∧
      ∀ (i : Fin 96) (e : StagingEntry), t.pool[i] = some e ↔ s.pool[i] = some e ∧ e.slot ≠ k

/-- DISCARD of an ABORTED group (R48): the answer carries the cause code; neither counter nor the last-end record
changes. -/
def Obligations.DiscardReportsTheAbortCause : Prop :=
  ∀ (s : State) (src : Source) (reason : Byte) (k : SlotId) (cause : AbortCause), Serving s → ClaimsSound s →
    (s.source src).link = some k → (s.slot k).state = .aborted → (s.slot k).cause = some cause →
    exec (.discardMark src reason) s = .next
      { s.setSource src { s.source src with hold := none, link := none } with
        bus := .answer src (.done (cause.toByte.setWidth 32)), slots := s.slots.set k Slot.empty }

/-- DISCARD from a source with no link (R49). -/
def Obligations.DiscardWithoutAGroup : Prop :=
  ∀ (s : State) (src : Source) (reason : Byte), Serving s → (s.source src).link = none →
    exec (.discardMark src reason) s = .next
      { s.setSource src { s.source src with hold := none } with
        bus := .answer src (.fault .noGroup),
        ml := { s.ml with lastFault := some { source := src, kind := .discard, addr := 0, code := .noGroup } } }

/-! ### ORDER and FLUSH -/

/-- ORDER advances the source's epoch, clears its hold record, and withdraws combine permission from the source's entries
of the new epoch; nothing else changes (R71, R73, R95). -/
def Obligations.OrderAdvancesTheEpoch : Prop :=
  ∀ (s : State) (src : Source) (arg : Byte), Serving s →
    exec (.orderMark src arg) s = .next
      { s.setSource src { s.source src with hold := none, epoch := (s.source src).epoch + 1 } with
        bus := .answer src (.done 0),
        posted := { s.posted with entries := s.posted.entries.map fun e =>
          if e.source = src ∧ e.epoch = (s.source src).epoch + 1 then { e with combine := false } else e } }

/-- A first FLUSH: answered DONE when no entry is posted and no slot is QUEUED or later, else its wait set is every
posted entry's stamp and every such slot, and the answer is RETRY; a COMMIT notice is abandoned first (R80, R83, R101). -/
def Obligations.FlushFormsItsWaitSet : Prop :=
  ∀ (s : State) (src : Source) (arg : Byte), Serving s →
    (∀ c : Completion, (s.source src).completion = some c → ∃ k, c.notice = .commit k) →
    let s' := if (s.source src).completion = none then s else s.count .abandonedNotices
    let slots := allSlots.filter fun k => decide ((s.slot k).state = .queued ∨ (s.slot k).state = .sealing ∨
      (s.slot k).state = .sealed ∨ (s.slot k).state = .applying)
    (s.posted.entries = [] → slots = [] →
      exec (.flushMark src arg) s = .next
        { s'.setSource src { s.source src with hold := none, completion := none } with
          bus := .answer src (.done 0) }) ∧
    (s.posted.entries ≠ [] ∨ slots ≠ [] →
      exec (.flushMark src arg) s = .next
        { s'.setSource src { s.source src with
            hold := none,
            completion := some { notice := .flush (s.posted.entries.map PostedEntry.stamp) slots, status := .waiting } }
          with bus := .answer src .retry })

/-! ### Timers -/

/-- Holds and notices at a tick, in RUNNING with the port ACTIVE: each hold timer that runs and each collect timer
advances, and those that reach their limits expire at that tick. The hold becomes EXPIRED, is counted and flagged, and a
held group write's FILLING group is aborted with cause CONFLICT; the READY notice is dropped, counted and flagged. No
request is answered. Which abort of several is the last is left free (R38, R70, R75, R76, R84, R86; log 27). Outside
RUNNING or while QUIESCED no timer moves and nothing expires.

HOLD_EXPIRY and COLLECT_EXPIRY are that tick as it reaches the one timer that it brings to its limit; where it does not,
they change nothing (log 3, log 12). -/
def Obligations.HoldsAndNoticesExpire : Prop :=
  (∀ (s : State) (src : Source), s.power ≠ .up ∨ s.op ≠ .running ∨ s.mp.port ≠ .active →
     s.tickSources = s ∧ exec (.holdExpiry src) s = .next { s with bus := .none } ∧
     exec (.collectExpiry src) s = .next { s with bus := .none }) ∧
  (∀ s : State, s.power = .up → s.op = .running → s.mp.port = .active →
     let expires := fun i : Source =>
       (s.source i).hold.any fun h => !h.expired && decide (s.time.holdLimit ≤ h.timer + 1)
     let drops := fun i : Source => (s.source i).completion.any fun c =>
       match c.status with
       | .waiting => false
       | .ready n => decide (s.time.collectLimit ≤ n + 1)
     let aborts := fun k : SlotId => decide ((s.slot k).state = .filling) &&
       (List.finRange 16).any fun i => expires i && decide ((s.source i).link = some k) &&
         (s.source i).hold.any fun h =>
           match h.request with
           | .group _ => true
           | _ => false
     ∃ t : State, s.tickSources = t ∧
       t = { s with sources := t.sources, slots := t.slots, pool := t.pool, freeCount := t.freeCount,
                    ml := { s.ml with flags := t.ml.flags, counters := t.ml.counters, lastEnd := t.ml.lastEnd } } ∧
       (∀ i, t.source i = { s.source i with
         hold := (s.source i).hold.map (fun h =>
           if h.expired = true then h
           else { h with timer := if h.timer < s.time.holdLimit then h.timer + 1 else h.timer,
                         expired := decide (s.time.holdLimit ≤ h.timer + 1) })
         completion := (s.source i).completion.bind fun c =>
           match c.status with
           | .waiting => some c
           | .ready n => if s.time.collectLimit ≤ n + 1 then none else some { c with status := .ready (n + 1) } }) ∧
       (∀ k, t.slot k = if aborts k = true then
           { Slot.empty with state := .aborted, owner := (s.slot k).owner, cause := some .conflict }
         else s.slot k) ∧
       (∀ (i : Fin 96) (e : StagingEntry), t.pool[i] = some e ↔ s.pool[i] = some e ∧ aborts e.slot = false) ∧
       (∀ f, t.flag f =
         (s.flag f || (decide (f = .holdExpired) && (List.finRange 16).any expires) ||
           (decide (f = .collectExpired) && (List.finRange 16).any drops) ||
           (decide (f = .groupAborted) && allSlots.any aborts))) ∧
       t.counter .holdExpiries = saturatingSucc^[(List.finRange 16).countP expires] (s.counter .holdExpiries) ∧
       t.counter .abandonedNotices = saturatingSucc^[(List.finRange 16).countP drops] (s.counter .abandonedNotices) ∧
       t.counter .abortedGroups = saturatingSucc^[allSlots.countP aborts] (s.counter .abortedGroups) ∧
       (∀ c, c ≠ .holdExpiries → c ≠ .abandonedNotices → c ≠ .abortedGroups → t.counter c = s.counter c) ∧
       ((∀ k, aborts k = false) → t.ml.lastEnd = s.ml.lastEnd) ∧
       ((∃ k, aborts k = true) → ∃ k, aborts k = true ∧ t.ml.lastEnd =
         some { slot := k, source := (s.slot k).owner.getD 0, outcome := .aborted .conflict }) ∧
       t.freeCount = if 2 ≤ (List.finRange 16).countP expires then s.freeCount + 1 else s.freeCount) ∧
  (∀ (s : State) (src : Source), s.power = .up → s.op = .running → s.mp.port = .active →
     (∀ h : Hold, (s.source src).hold = some h → h.expired = false → s.time.holdLimit ≤ h.timer + 1 →
       let t := (({ s with bus := .none }.setSource src { s.source src with
           hold := some { h with expired := true,
                                 timer := if h.timer < s.time.holdLimit then h.timer + 1 else h.timer } }).count
         .holdExpiries).setFlag .holdExpired
       ((∀ a, h.request ≠ .group a) → exec (.holdExpiry src) s = .next t) ∧
       (∀ a k, h.request = .group a → (s.source src).link = some k → (s.slot k).state = .filling →
         exec (.holdExpiry src) s = .next (t.abortGroup k .conflict))) ∧
     ((∀ h : Hold, (s.source src).hold = some h → h.expired = true ∨ h.timer + 1 < s.time.holdLimit) →
       exec (.holdExpiry src) s = .next { s with bus := .none }) ∧
     (∀ (c : Completion) (n : Nat), (s.source src).completion = some c → c.status = .ready n →
       s.time.collectLimit ≤ n + 1 →
       exec (.collectExpiry src) s = .next
         ((({ s with bus := .none }.setSource src { s.source src with completion := none }).count
           .abandonedNotices).setFlag .collectExpired)) ∧
     ((∀ c : Completion, (s.source src).completion = some c →
         c.status = .waiting ∨ ∃ n, c.status = .ready n ∧ n + 1 < s.time.collectLimit) →
       exec (.collectExpiry src) s = .next { s with bus := .none }))

/-! ### The Memory Port -/

/-- The grant: with the port ACTIVE and idle and no warning pending, the first requester with work from the rotation
point is granted, the rotation point becomes the one after it, and the requester notes it; in RECOVERING the scanner
alone is granted and the rotation point stays; otherwise nothing is granted (R97, R105, R148 to R150).

What each requester asks for. Read: the held READ's word, once. Drain: the head entry's bytes, while no entry is WRITING.
Seal: the first word of the seal still to be written, all lanes. Apply: in HOME the entry at the cursor, under its mask;
in RETIRE the header with the state RETIRED at the record's position. The scanner: while scanning the ring word behind
those in its buffer; in replay the next entry's data under its mask, and behind the last the header RETIRED at the chosen
record's offset (R97, R105, R124, R133, R134, R148, R165, R167). -/
def Obligations.GrantGoesRound : Prop :=
  (∀ s : State,
     (s.power ≠ .up ∨ s.mp.port ≠ .active ∨ s.mp.inFlight ≠ none ∨ s.mp.warning = true → s.grant = s) ∧
     (s.power = .up → s.mp.port = .active → s.mp.inFlight = none → s.mp.warning = false →
       (s.op = .recovering →
         s.grant = match s.scannerOp with
           | none => s
           | some op => { s with mp := { s.mp with inFlight := some { requester := .scanner, op } } }) ∧
       (s.op ≠ .recovering →
         ((∀ r, s.nextOp r = none) → s.grant = s) ∧
         ∀ (before after : List Rotor) (r : Rotor) (op : WordOp),
           [s.mp.rotation, s.mp.rotation.next, s.mp.rotation.next.next, s.mp.rotation.next.next.next] =
             before ++ r :: after →
           (∀ x ∈ before, s.nextOp x = none) → s.nextOp r = some op →
           ∃ t : State, s.grant = t ∧
             t = { s with mp := { s.mp with inFlight := some { requester := .rotor r, op }, rotation := r.next },
                          held := t.held, posted := { s.posted with entries := t.posted.entries } } ∧
             t.held = (if r = .read then s.held.map fun h => { h with granted := true } else s.held) ∧
             (r ≠ .drain → t.posted.entries = s.posted.entries) ∧
             (r = .drain → ∃ e rest, s.posted.entries = e :: rest ∧ op = .write e.word e.mask e.data ∧
               t.posted.entries = { e with writing := true } :: rest)))) ∧
  (∀ s : State,
     (∀ h, s.held = some h → s.nextOp .read = if h.granted then none else some (.read h.word)) ∧
     (s.held = none → s.nextOp .read = none) ∧
     (∀ e rest, s.posted.entries = e :: rest → (∀ x ∈ s.posted.entries, x.writing = false) →
       s.nextOp .drain = some (.write e.word e.mask e.data)) ∧
     ((s.posted.entries = [] ∨ ∃ x ∈ s.posted.entries, x.writing = true) → s.nextOp .drain = none) ∧
     (∀ a w rest, s.journal.sealWrites = (a, w) :: rest → s.nextOp .sealer = some (.write a 0xF w)) ∧
     (s.journal.sealWrites = [] → s.nextOp .sealer = none) ∧
     (s.apply.applying = none → s.nextOp .apply = none) ∧
     (∀ (k : SlotId) (n : Nat), s.apply.applying = some (k, .home) → (s.slot k).cursor = some n →
       (∀ i : Fin 96, ∀ e : StagingEntry, s.pool[i] = some e → e.slot = k → e.position = n →
         (∀ j : Fin 96, ∀ x : StagingEntry, s.pool[j] = some x → x.slot = k → x.position = n → j = i) →
         s.nextOp .apply = some (.write e.word e.mask e.data)) ∧
       ∀ op, s.nextOp .apply = some op → ∃ (i : Fin 96) (e : StagingEntry), s.pool[i] = some e ∧ e.slot = k ∧
         e.position = n ∧ op = .write e.word e.mask e.data) ∧
     (∀ (k : SlotId) (r : Region) (p : Nat), s.apply.applying = some (k, .retire) → s.region = some r →
       (s.slot k).position = some p →
       s.nextOp .apply = some (.write (BitVec.ofNat 24 (r.base + p)) 0xF
         (0xA5C3#16 ++ 0x02#8 ++ BitVec.ofNat 8 (s.slotLen k)))) ∧
     (s.scanner.activity = .idle → s.scannerOp = none) ∧
     (∀ r, s.region = some r → s.scanner.activity = .scanning →
       s.scannerOp = some (.read (BitVec.ofNat 24 (r.base + (s.scanner.offset + 4 * s.scanner.buffer.length))))) ∧
     (∀ (a d : Word) (rest : List (Word × Word)), s.scanner.activity = .replaying ((a, d) :: rest) →
       s.scannerOp = some (.write (a.extractLsb' 2 22 ++ 0#2) (a.extractLsb' 28 4) d)) ∧
     (∀ (r : Region) (c : ChosenRecord), s.region = some r → s.scanner.activity = .replaying [] →
       s.scanner.chosen = some c →
       s.scannerOp = some (.write (BitVec.ofNat 24 (r.base + c.offset)) 0xF
         (0xA5C3#16 ++ 0x02#8 ++ BitVec.ofNat 8 c.count))))

/-- The ring-space wait (R118): found when the head slot of the Commit Queue meets every condition of R121 but the space
condition, flagged and counted once for a head slot; nothing else changes.

What follows a completion, in every operating state: the ring-space finding and the end of RELOAD's wait (Reload), and
then the grant. With a warning pending and nothing in flight the port is QUIESCED behind those two and grants nothing, and
a held READ not yet granted is answered RETRY and withdrawn (R4, R118, R128, R144, R149, R151, R174). That the finding
comes before the wait's end is the model's reading (log 18). -/
def Obligations.SettleAfterACompletion : Prop :=
  ∀ s : State,
    (∀ (k : SlotId) (rest : List SlotId), s.journal.commitQueue = k :: rest →
      (s.sealReadyButSpace k = true → s.spaceReady k = false → s.journal.ringWait = false →
        s.noteRingWait = ({ s with journal := { s.journal with ringWait := true } }.count .ringWaits).setFlag .ringWait) ∧
      (s.sealReadyButSpace k = false ∨ s.spaceReady k = true ∨ s.journal.ringWait = true → s.noteRingWait = s)) ∧
    (s.journal.commitQueue = [] → s.noteRingWait = s) ∧
    (let followed := s.noteRingWait.endReloadWait
     (s.mp.warning = false → s.settle = followed.grant) ∧
     (s.mp.warning = true → s.mp.inFlight ≠ none → s.settle = followed) ∧
     (s.mp.warning = true → s.mp.inFlight = none →
       (s.held = none ∨ (∃ h, s.held = some h ∧ h.granted = true) →
         s.settle = { followed with mp := { s.mp with port := .quiesced, warning := false } }) ∧
       (∀ h, s.held = some h → h.granted = false →
         s.settle = { followed with mp := { s.mp with port := .quiesced, warning := false }, held := none,
                                    bus := .answer h.source .retry })))

/-- PFAIL_N_ASSERTED sets POWER-WARN; an idle port is QUIESCED at once, a held READ not yet granted answered RETRY; an
operation in flight leaves the warning pending; QUIESCED or pending, nothing further. PFAIL_N_DEASSERTED ends a pending
warning, or returns a QUIESCED port to ACTIVE with the grant that is due; POWER-WARN stays (R4, R151, R153). -/
def Obligations.PowerFailWarning : Prop :=
  ∀ s : State, s.power = .up →
    let s' := { s with bus := .none, lines := { s.lines with pfail := true } }.setFlag .powerWarn
    (s.mp.port = .active → s.mp.warning = false → s.mp.inFlight = none → s.held = none →
      exec .pfailAsserted s = .next { s' with mp := { s.mp with port := .quiesced } }) ∧
    (∀ h, s.mp.port = .active → s.mp.warning = false → s.mp.inFlight = none → s.held = some h → h.granted = false →
      exec .pfailAsserted s = .next
        { s' with mp := { s.mp with port := .quiesced }, held := none, bus := .answer h.source .retry }) ∧
    (s.mp.port = .active → s.mp.inFlight ≠ none →
      exec .pfailAsserted s = .next { s' with mp := { s.mp with warning := true } }) ∧
    (s.mp.port = .quiesced → exec .pfailAsserted s = .next s') ∧
    (s.mp.port = .active →
      exec .pfailDeasserted s = .next
        { s with bus := .none, lines := { s.lines with pfail := false }, mp := { s.mp with warning := false } }) ∧
    (s.mp.port = .quiesced →
      exec .pfailDeasserted s = .next (State.settle
        { s with bus := .none, lines := { s.lines with pfail := false }, mp := { s.mp with port := .active } }))

/-- Whatever the command, each byte of the RAM is as it was, or is a byte of the write in flight: a lane of its mask in
its word (R146, R147, R152). -/
def Obligations.RamChangesOnlyByTheWriteInFlight : Prop :=
  ∀ (c : Instr) (s t : State), s.mem.wf = true → exec c s = .next t →
    t.mem = s.mem ∨
    ∃ (r : Requester) (word : Addr) (mask : Mask) (data : Word),
      s.mp.inFlight = some { requester := r, op := .write word mask data } ∧
      (∀ k : Fin 4, t.mem.get (4 * (word.toNat / 4) + k.val) =
        if mask.getLsbD k.val then lane data k else s.mem.get (4 * (word.toNat / 4) + k.val)) ∧
      ∀ a : Nat, (∀ k : Fin 4, a ≠ 4 * (word.toNat / 4) + k.val) → t.mem.get a = s.mem.get a

/-! ### Drain, seal, apply -/

/-- DRAIN_WRITE_COMPLETION: the head entry's bytes are in the RAM and the entry leaves the queue; FLUSH wait sets lose it,
those left empty are READY with their collect timer at 0, and barrier points that name it are met (R81, R97, R103). That
the write in flight is the head entry's: StepKeepsTheFlightSound. -/
def Obligations.DrainRemovesTheHead : Prop :=
  ∀ (s : State) (e : PostedEntry) (rest : List PostedEntry) (word : Addr) (mask : Mask) (data : Word),
    s.posted.entries = e :: rest →
    s.mp.inFlight = some { requester := .rotor .drain, op := .write word mask data } →
    ∃ t : State, exec .drainWriteCompletion s = .next t.settle ∧
      t = { s with bus := .none, mp := { s.mp with inFlight := none }, mem := s.mem.writeWord word mask data,
                   posted := { s.posted with entries := rest, barriers := t.posted.barriers }, sources := t.sources } ∧
      (∀ k : SlotId, t.posted.barriers[k] = s.posted.barriers[k].map fun b =>
        if b = .entry e.stamp then .met else b) ∧
      (∀ i : Source, t.source i = { s.source i with completion := (t.source i).completion } ∧
        (∀ stamps slots, (s.source i).completion = some { notice := .flush stamps slots, status := .waiting } →
          (t.source i).completion = some
            { notice := .flush (stamps.filter fun x => decide (x ≠ e.stamp)) slots,
              status := if (∀ x ∈ stamps, x = e.stamp) ∧ slots = [] then .ready 0 else .waiting }) ∧
        ((∀ stamps slots, (s.source i).completion ≠ some { notice := .flush stamps slots, status := .waiting }) →
          (t.source i).completion = (s.source i).completion))

/-- BEGINNING_OF_SEAL under the conditions of R121: the head slot is SEALING with the counter's number, or 1 at the wrap,
and the counter stands one above it; the record is placed at head, or at 0 behind a pad when it does not fit before the
ring end; its words, the pad header first and the seal word last, are due (R112 to R117, R121 to R124).

With any of those conditions false BEGINNING_OF_SEAL begins nothing (R121; log 3). -/
def Obligations.SealBegins : Prop :=
  (∀ (s : State) (k : SlotId) (rest : List SlotId) (r : Region), s.journal.commitQueue = k :: rest →
     s.region = some r → s.power = .up → (s.op = .running ∨ s.op = .reloading) → s.mp.port = .active →
     (∀ j, (s.slot j).state ≠ .sealing) → s.posted.barriers[k] = some .met →
     (s.journal.seqCounter ≠ 4294967295 ∨ s.apply.queue = [] ∧ s.apply.applying = none) →
     let size := placementSize (s.slotLen k)
     let left := r.size - s.journal.head
     let seqNo : Word := if s.journal.seqCounter = 4294967295 then 1 else s.journal.seqCounter
     let begun := fun (position head tail fill : Nat) (writes : List (Addr × Word)) =>
       { s with
         bus := .none
         slots := s.slots.set k { s.slot k with
           state := .sealing, seqNo := some seqNo, position := some position, recordSize := some size }
         journal := { head, tail, fill, seqCounter := seqNo + 1, commitQueue := rest, ringWait := false,
                      sealWrites := writes }
         posted := { s.posted with barriers := s.posted.barriers.set k none } }
     (size ≤ left → s.journal.fill + size ≤ r.size →
       exec .beginningOfSeal s = .next (State.grant (begun s.journal.head
         (if s.journal.head + size = r.size then 0 else s.journal.head + size) s.journal.tail (s.journal.fill + size)
         (wordsAt r s.journal.head (s.recordWords k seqNo))))) ∧
     (left < size → s.journal.fill + left + size ≤ r.size →
       exec .beginningOfSeal s = .next (State.grant (begun 0 size
         (if s.journal.fill = 0 then 0 else s.journal.tail)
         (if s.journal.fill = 0 then size else s.journal.fill + left + size)
         ((BitVec.ofNat 24 (r.base + s.journal.head), (0xA5C3#16 ++ 0x03#8 ++ BitVec.ofNat 8 (left / 16))) ::
           wordsAt r 0 (s.recordWords k seqNo)))))) ∧
  (∀ s : State,
     (s.journal.commitQueue = [] ∨ s.region = none →
       exec .beginningOfSeal s = .next { s with bus := .none }) ∧
     (∀ (k : SlotId) (rest : List SlotId) (r : Region), s.journal.commitQueue = k :: rest → s.region = some r →
       let size := placementSize (s.slotLen k)
       let left := r.size - s.journal.head
       (s.power ≠ .up ∨ (s.op ≠ .running ∧ s.op ≠ .reloading) ∨ s.mp.port = .quiesced ∨
         (∃ j, (s.slot j).state = .sealing) ∨ s.posted.barriers[k] ≠ some .met ∨
         (s.journal.seqCounter = 4294967295 ∧ (s.apply.queue ≠ [] ∨ s.apply.applying ≠ none)) ∨
         (size ≤ left ∧ r.size < s.journal.fill + size) ∨ (left < size ∧ r.size < s.journal.fill + left + size)) →
       exec .beginningOfSeal s = .next { s with bus := .none }))

/-- The words of a slot's record are what the recovery tests accept, with the header LIVE or rewritten RETIRED, and what
recovery reads back from them is the group: each entry's word, mask and data, the slot and the source. Without its seal
word the record is not valid. The record fits its placement, with fewer than 16 bytes to spare (R112 to R114, R165,
R167). -/
def Obligations.RecordIsReadBackAsWritten : Prop :=
  ∀ (s : State) (k : SlotId) (seqNo : Word) (owner : Source), (s.slot k).owner = some owner →
    1 ≤ (s.stagedList k).length → (s.stagedList k).length ≤ 32 → (∀ e ∈ s.stagedList k, e.word.toNat % 4 = 0) →
    let e := (s.stagedList k).length
    let ws := s.recordWords k seqNo
    ws.length = 5 + 2 * e ∧ ws.getD 1 0 = seqNo ∧
    headerMarker (ws.getD 0 0) = 0xA5C3#16 ∧ headerState (ws.getD 0 0) = 0x01#8 ∧ headerCount (ws.getD 0 0) = e ∧
    recordValid e ws = true ∧ recordValid e (ws.set 0 (headerWord retiredByte e)) = true ∧
    (∀ w, w ≠ ~~~ seqNo → recordValid e (ws.set (4 + 2 * e) w) = false) ∧
    (recordEntries e ws).map (fun p => (entryWord p.1, entryMask p.1, p.2)) =
      (s.stagedList k).map (fun x => (x.word, x.mask, x.data)) ∧
    originSlot (ws.getD 2 0) = k ∧ originSource (ws.getD 2 0) = owner ∧
    4 * ws.length ≤ placementSize e ∧ placementSize e < 4 * ws.length + 16 ∧ placementSize e % 16 = 0

/-- SEAL_WRITE_COMPLETION of a word that is not the last: it is in the RAM and the next word is due. Of the seal word: the
commit point. The slot joins the Apply Queue and is taken at once when no slot is applying, the owner's COMMIT notice
becomes READY if it names the slot, and the group is counted and recorded (R79, R124, R126, R131, R132). That the write
in flight is that word's: StepKeepsTheFlightSound. -/
def Obligations.SealWordsAndTheCommitPoint : Prop :=
  ∀ (s : State) (a word : Addr) (w data : Word) (mask : Mask) (rest : List (Addr × Word)),
    s.mp.inFlight = some { requester := .rotor .sealer, op := .write word mask data } →
    s.journal.sealWrites = (a, w) :: rest →
    let written := { s with bus := .none, mp := { s.mp with inFlight := none },
                            mem := s.mem.writeWord word mask data,
                            journal := { s.journal with sealWrites := rest } }
    (rest ≠ [] → exec .sealWriteCompletion s = .next written.settle) ∧
    (∀ (k : SlotId) (owner : Source) (n : Word), rest = [] → (s.slot k).state = .sealing →
      (∀ j, (s.slot j).state = .sealing → j = k) → (s.slot k).owner = some owner → (s.slot k).seqNo = some n →
      let committed := fun (state : SlotState) (cursor : Option Nat) (apply : Apply) =>
        { (written.count .sealedGroups).setSource owner { s.source owner with
            completion := (s.source owner).completion.map fun c =>
              if c = { notice := .commit k, status := .waiting } then { c with status := .ready 0 } else c } with
          slots := s.slots.set k { s.slot k with state, cursor }, apply,
          ml := { (s.count .sealedGroups).ml with
            lastEnd := some { slot := k, source := owner, outcome := .sealed n } } }
      (s.apply = { queue := [], applying := none } →
        exec .sealWriteCompletion s = .next (State.settle
          (committed .applying (some 0) { queue := [], applying := some (k, .home) }))) ∧
      (∀ p, s.apply.applying = some p →
        exec .sealWriteCompletion s = .next (State.settle
          (committed .sealed (s.slot k).cursor { queue := s.apply.queue ++ [k], applying := some p }))))

/-- HOME_WRITE_COMPLETION: the entry's bytes are in the RAM; the cursor advances, or at the last list position the phase
becomes RETIRE (R133).

RETIREMENT: the slot is FREE and its entries and claims gone, the head of the Apply Queue is taken, FLUSH wait sets
lose the slot, and tail and fill pass the record and a pad behind it; head, the counters, the flags and the two records
stay (R81, R132, R135, R136).

That the write in flight is that entry's, or the retire mark: StepKeepsTheFlightSound. -/
def Obligations.ApplyWritesAndRetirement : Prop :=
  (∀ (s : State) (k : SlotId) (n : Nat) (word : Addr) (mask : Mask) (data : Word),
     s.apply.applying = some (k, .home) → (s.slot k).cursor = some n →
     s.mp.inFlight = some { requester := .rotor .apply, op := .write word mask data } →
     let written := { s with bus := .none, mp := { s.mp with inFlight := none }, mem := s.mem.writeWord word mask data }
     (n + 1 < s.slotLen k →
       exec .homeWriteCompletion s = .next (State.settle
         { written with slots := s.slots.set k { s.slot k with cursor := some (n + 1) } })) ∧
     (s.slotLen k ≤ n + 1 →
       exec .homeWriteCompletion s = .next (State.settle
         { written with apply := { s.apply with applying := some (k, .retire) } }))) ∧
  (∀ (s : State) (k : SlotId) (r : Region) (position size : Nat) (word : Addr) (mask : Mask) (data : Word),
     s.apply.applying = some (k, .retire) → k ∉ s.apply.queue → s.region = some r →
     (s.slot k).position = some position → (s.slot k).recordSize = some size →
     s.mp.inFlight = some { requester := .rotor .apply, op := .write word mask data } →
     ∃ t : State, exec .retirement s = .next t.settle ∧
       t = { s with bus := .none, mp := { s.mp with inFlight := none }, mem := s.mem.writeWord word mask data,
                    slots := t.slots, pool := t.pool, apply := t.apply, sources := t.sources,
                    journal := { s.journal with tail := t.journal.tail, fill := t.journal.fill } } ∧
       t.slot k = Slot.empty ∧
       (∀ (i : Fin 96) (e : StagingEntry), t.pool[i] = some e ↔ s.pool[i] = some e ∧ e.slot ≠ k) ∧
       (s.apply.queue = [] → t.apply = { queue := [], applying := none } ∧ ∀ j, j ≠ k → t.slot j = s.slot j) ∧
       (∀ j queue, s.apply.queue = j :: queue →
         t.apply = { queue, applying := some (j, .home) } ∧
         t.slot j = { s.slot j with state := .applying, cursor := some 0 } ∧
         ∀ i, i ≠ k → i ≠ j → t.slot i = s.slot i) ∧
       (∀ i : Source, t.source i = { s.source i with completion := (t.source i).completion } ∧
         (∀ stamps slots, (s.source i).completion = some { notice := .flush stamps slots, status := .waiting } →
           (t.source i).completion = some
             { notice := .flush stamps (slots.filter fun x => decide (x ≠ k)),
               status := if stamps = [] ∧ (∀ x ∈ slots, x = k) then .ready 0 else .waiting }) ∧
         ((∀ stamps slots, (s.source i).completion ≠ some { notice := .flush stamps slots, status := .waiting }) →
           (t.source i).completion = (s.source i).completion)) ∧
       (let tail := if position + size = r.size then 0 else position + size
        let fill := s.journal.fill - size
        let oldest : Option Nat :=
          match s.apply.queue with
          | j :: _ => (s.slot j).position
          | [] => s.sealingSlot.bind fun j => (s.slot j).position
        (0 < fill → tail ≠ 0 → oldest = some 0 → t.journal.tail = 0 ∧ t.journal.fill = fill - (r.size - tail)) ∧
        (fill = 0 ∨ tail = 0 ∨ oldest ≠ some 0 → t.journal.tail = tail ∧ t.journal.fill = fill)))

/-- The relation of R110, head equals tail plus fill modulo the ring size, is kept by a placement made under the space
condition (R116, R117) and by a retirement at the tail, a pad of `pad` bytes behind the record or none (R136). -/
def Obligations.RingRelationIsKept : Prop :=
  ∀ (j : Journal) (r : Region), 0 < r.size → j.head < r.size → j.tail < r.size → j.fill ≤ r.size →
    j.head = (j.tail + j.fill) % r.size →
    (∀ size, 0 < size →
      j.fill + (if r.size - j.head < size then r.size - j.head else 0) + size ≤ r.size →
      let p := j.place r size
      p.head = (p.tail + p.fill) % r.size ∧ p.fill ≤ r.size ∧ p.head < r.size ∧ p.tail < r.size ∧ 0 < p.fill) ∧
    (∀ size oldest, 0 < size → size ≤ j.fill → j.tail + size ≤ r.size →
      (0 < j.fill - size → j.tail + size < r.size → oldest = some 0 →
        r.size - (j.tail + size) ≤ j.fill - size) →
      let q := j.release r j.tail size oldest
      q.head = (q.tail + q.fill) % r.size ∧ q.fill < j.fill ∧ q.tail < r.size)

/-! ### Link reset and RELOAD -/

/-- LRST_N_ASSERTED and the LINK_RESET item are link resets, in every operating state and with the port in either state;
LRST_N_DEASSERTED only lets the port take requests again. Without power, and while power-on reset is in force, the lines
alone have their levels (R171, R172, R190; log 24).

What a link reset does at its one event: a held READ answered RETRY; FILLING, READY and QUEUED slots freed with their
entries, counted as discarded and the highest of them recorded; ABORTED slots freed; the others left; the Source Table
cleared and every epoch advanced; posted entries kept, combining into them blocked; the Commit Queue emptied. The RAM, the
Window Table, the ring pointers and counter, the Apply Engine, the Memory Port, the flags and the operating state stay
(R4, R50, R68, R87, R96, R104, R127, R142, R171). -/
def Obligations.LinkReset : Prop :=
  (∀ s : State,
     (s.power = .up →
       exec .lrstAsserted s =
         .next { s with bus := .none, lines := { s.lines with lrst := true } }.linkReset ∧
       exec .linkReset s = .next
         { ({ s with bus := .none } : State).linkReset with
           ml := { ({ s with bus := .none } : State).linkReset.ml with selected := .linkReset, result := .ok } }) ∧
     (s.power ≠ .up →
       exec .lrstAsserted s = .next { s with bus := .none, lines := { s.lines with lrst := true } } ∧
       exec .linkReset s = .next { s with bus := .none }) ∧
     exec .lrstDeasserted s = .next { s with bus := .none, lines := { s.lines with lrst := false } }) ∧
  (∀ s : State, ∃ t : State, s.linkReset = t ∧
     t = { s with held := none, bus := t.bus, slots := t.slots, pool := t.pool, sources := t.sources,
                  posted := { s.posted with entries := t.posted.entries, barriers := t.posted.barriers },
                  journal := { s.journal with commitQueue := [], ringWait := false },
                  ml := { s.ml with counters := t.ml.counters, lastEnd := t.ml.lastEnd } } ∧
     t.bus = (match s.held with
       | none => s.bus
       | some h => .answer h.source .retry) ∧
     (∀ k, t.slot k =
       if (s.slot k).state = .sealing ∨ (s.slot k).state = .sealed ∨ (s.slot k).state = .applying ∨
         (s.slot k).state = .free then s.slot k else Slot.empty) ∧
     (∀ (i : Fin 96) (e : StagingEntry), t.pool[i] = some e ↔ s.pool[i] = some e ∧
       ((s.slot e.slot).state = .sealing ∨ (s.slot e.slot).state = .sealed ∨ (s.slot e.slot).state = .applying ∨
         (s.slot e.slot).state = .free)) ∧
     (∀ i, t.source i = { link := none, hold := none, completion := none, epoch := (s.source i).epoch + 1 }) ∧
     t.posted.entries = s.posted.entries.map (fun e =>
       if e.epoch = (s.source e.source).epoch + 1 then { e with combine := false } else e) ∧
     (∀ k : SlotId, t.posted.barriers[k] =
       if (s.slot k).state = .filling ∨ (s.slot k).state = .ready ∨ (s.slot k).state = .queued then none
       else s.posted.barriers[k]) ∧
     (∀ c, t.counter c =
       if c = .discardedGroups then
         saturatingSucc^[allSlots.countP fun k => decide ((s.slot k).state = .filling ∨ (s.slot k).state = .ready ∨
           (s.slot k).state = .queued)] (s.counter c)
       else s.counter c) ∧
     t.ml.lastEnd =
       (match allSlots.reverse.find? fun k => decide ((s.slot k).state = .filling ∨ (s.slot k).state = .ready ∨
           (s.slot k).state = .queued) with
        | none => s.ml.lastEnd
        | some k => some { slot := k, source := (s.slot k).owner.getD 0, outcome := .discardedReset }))

/-- RELOAD in RUNNING and UNCONFIGURED: the effects of a link reset in RELOADING; when the drain is over at once and the
port is ACTIVE, the runtime guards are cleared, and with the Configuration Link idle LOADING is entered.
In LOADING, RECOVERING and RELOADING it is answered BUSY and changes nothing else (R173 to R175, R178, R190; that the
refused item is selected: log 16).

The end of RELOAD's wait: with every condition of R174 true and the port ACTIVE the runtime guards are cleared, once,
and LOADING is entered as soon as the Configuration Link is not busy, whatever the port (log 13); nothing else changes
(R152, R173 to R175). -/
def Obligations.Reload : Prop :=
  (∀ s : State, s.power = .up →
     (s.op = .loading ∨ s.op = .recovering ∨ s.op = .reloading →
       exec .reload s = .next { s with bus := .none, ml := { s.ml with selected := .reload, result := .busy } }) ∧
     (s.op = .running ∨ s.op = .unconfigured →
       let t := ({ s with bus := .none } : State).linkReset
       let ends := s.mp.port = .active ∧ s.apply.queue = [] ∧ s.apply.applying = none ∧ s.posted.entries = [] ∧
         ∀ k, (s.slot k).state ≠ .sealing
       let result := fun (windows : Vector Window 8) (op : OperatingState) (guardsCleared : Bool) =>
         { t with windows, op, guardsCleared, ml := { t.ml with selected := .reload, result := .ok } }
       let cleared := Vector.ofFn fun i : WindowId => { s.windows[i] with runtimeGuard := false }
       (¬ ends → exec .reload s = .next (result s.windows .reloading false)) ∧
       (ends → s.cl.op = none → exec .reload s = .next (result cleared .loading false)) ∧
       (ends → s.cl.op ≠ none → exec .reload s = .next (result cleared .reloading true)))) ∧
  (∀ s : State,
     (s.op ≠ .reloading → s.endReloadWait = s) ∧
     (s.op = .reloading →
       let ends := s.mp.port = .active ∧ s.journal.commitQueue = [] ∧ s.apply.queue = [] ∧
         s.apply.applying = none ∧ s.posted.entries = [] ∧ ∀ k, (s.slot k).state ≠ .sealing
       let cleared := Vector.ofFn fun i : WindowId => { s.windows[i] with runtimeGuard := false }
       (s.guardsCleared = false → ¬ ends → s.endReloadWait = s) ∧
       (s.guardsCleared = false → ends → s.cl.op ≠ none →
         s.endReloadWait = { s with windows := cleared, guardsCleared := true }) ∧
       (s.guardsCleared = false → ends → s.cl.op = none →
         s.endReloadWait = { s with windows := cleared, op := .loading }) ∧
       (s.guardsCleared = true → s.cl.op ≠ none → s.endReloadWait = s) ∧
       (s.guardsCleared = true → s.cl.op = none →
         s.endReloadWait = { s with op := .loading, guardsCleared := false })))

/-! ### Recovery -/

/-- RECOVERY_READ_COMPLETION of a header word: a parity fault, a wrong marker or a pad is no candidate; a marker with a
wrong state, count or fit is torn, and in the survey counted and noted; else the candidate's further words are read. A
boundary passed moves the offset by 16, and at the ring size the pass ends: PASS_END, and with no record chosen
END_OF_RECOVERY (EndOfAPassAndReplay) (R165, R166, R168, R169). -/
def Obligations.RecoveryJudgesAHeader : Prop :=
  ∀ (s : State) (word : Addr) (r : Region), s.region = some r → s.scanner.activity = .scanning →
    s.scanner.buffer = [] →
    s.mp.inFlight = some { requester := .scanner, op := .read word } →
    let w := s.mem.readWord word
    let e := (w.extractLsb' 0 8).toNat
    let read := { s with bus := .none, mp := { s.mp with inFlight := none } }
    let passed := fun (x : State) =>
      let y := { x with scanner := { x.scanner with offset := s.scanner.offset + 16, buffer := [] } }
      State.settle (if r.size ≤ s.scanner.offset + 16 then y.endPass else y)
    (s.scanner.pass = 1 →
      exec (.recoveryReadCompletion true) s =
        .next (passed ((read.count .parityFaults).setFlag .parity))) ∧
    (s.scanner.pass ≠ 1 → exec (.recoveryReadCompletion true) s = .next (passed read)) ∧
    (w.extractLsb' 16 16 ≠ 0xA5C3#16 ∨ w.extractLsb' 8 8 = 0x03#8 →
      exec (.recoveryReadCompletion false) s = .next (passed read)) ∧
    (w.extractLsb' 16 16 = 0xA5C3#16 → w.extractLsb' 8 8 ≠ 0x03#8 →
      (w.extractLsb' 8 8 ≠ 0x01#8 ∧ w.extractLsb' 8 8 ≠ 0x02#8 ∨ e = 0 ∨ 32 < e ∨
        r.size < s.scanner.offset + placementSize e) →
      (s.scanner.pass = 1 →
        exec (.recoveryReadCompletion false) s = .next
          (passed { read.count .tornCandidates with scanner := { s.scanner with damage := true } })) ∧
      (s.scanner.pass ≠ 1 → exec (.recoveryReadCompletion false) s = .next (passed read))) ∧
    (w.extractLsb' 16 16 = 0xA5C3#16 → (w.extractLsb' 8 8 = 0x01#8 ∨ w.extractLsb' 8 8 = 0x02#8) → 1 ≤ e → e ≤ 32 →
      s.scanner.offset + placementSize e ≤ r.size →
      exec (.recoveryReadCompletion false) s = .next (State.settle
        { read with scanner := { s.scanner with buffer := [w] } }))

/-- RECOVERY_READ_COMPLETION of a candidate's further word: it joins the buffer until the last; the whole record is then
valid or torn. A valid record moves the offset by its placement size, raises the highest sequence in the survey, and is
chosen when LIVE and none of a lower or equal number is. A parity fault makes the candidate torn. At the
ring size the pass ends: PASS_END, and with no record chosen END_OF_RECOVERY (EndOfAPassAndReplay) (R164 to R166, R168,
R169). -/
def Obligations.RecoveryJudgesACandidate : Prop :=
  ∀ (s : State) (word : Addr) (r : Region) (header : Word) (more : List Word), s.region = some r →
    s.scanner.activity = .scanning → s.scanner.buffer = header :: more →
    s.mp.inFlight = some { requester := .scanner, op := .read word } →
    let e := headerCount header
    let ws := s.scanner.buffer ++ [s.mem.readWord word]
    let read := { s with bus := .none, mp := { s.mp with inFlight := none } }
    let passed := fun (x : State) => State.settle (if r.size ≤ x.scanner.offset then x.endPass else x)
    let torn := fun (x : State) => passed
      { (if s.scanner.pass = 1 then x.count .tornCandidates else x) with
        scanner := { s.scanner with offset := s.scanner.offset + 16, buffer := [],
                                    damage := s.scanner.damage || decide (s.scanner.pass = 1) } }
    exec (.recoveryReadCompletion true) s = .next (torn
      (if s.scanner.pass = 1 then (read.count .parityFaults).setFlag .parity else read)) ∧
    (ws.length < 5 + 2 * e →
      exec (.recoveryReadCompletion false) s = .next (State.settle
        { read with scanner := { s.scanner with buffer := ws } })) ∧
    (5 + 2 * e ≤ ws.length → recordValid e ws = false →
      exec (.recoveryReadCompletion false) s = .next (torn read)) ∧
    (5 + 2 * e ≤ ws.length → recordValid e ws = true →
      ∃ (highest : Option Word) (chosen : Option ChosenRecord),
        exec (.recoveryReadCompletion false) s = .next (passed
          { read with scanner := { s.scanner with offset := s.scanner.offset + placementSize e, buffer := [], highest,
                                                  chosen } }) ∧
        (s.scanner.pass ≠ 1 → highest = s.scanner.highest) ∧
        (s.scanner.pass = 1 → ∃ n, highest = some n ∧ (ws.getD 1 0).toNat ≤ n.toNat ∧
          (∀ m, s.scanner.highest = some m → m.toNat ≤ n.toNat) ∧
          (n = ws.getD 1 0 ∨ s.scanner.highest = some n)) ∧
        (headerState header = 0x01#8 →
          (∀ c, s.scanner.chosen = some c → (ws.getD 1 0).toNat < c.seqNo.toNat) →
          chosen = some { offset := s.scanner.offset, seqNo := ws.getD 1 0, count := e, origin := ws.getD 2 0,
                          entries := recordEntries e ws }) ∧
        (headerState header ≠ 0x01#8 ∨
          (∃ c, s.scanner.chosen = some c ∧ c.seqNo.toNat ≤ (ws.getD 1 0).toNat) → chosen = s.scanner.chosen))

/-- The end of a pass: with a record chosen its replay begins at the first entry that is to be written; with none,
recovery ends: RUNNING, the pointers 0, the counter one above the highest sequence, or 1, and RECOVERY-DAMAGE set when the
damage note is (R167 to R169).

The entries that replay passes over unwritten are those of mask 0 and those inside the journal region; the next one to
be written is the first other (R167). That one inside the region sets the damage note even when its mask is 0 is the
model's reading (log 19).

REPLAY_WRITE_COMPLETION of a home write: its bytes are in the RAM and replay goes on with the rest. Of the header: the
replay is counted and recorded with the slot and source of the origin word, and the next pass begins at 0 with no record
chosen (R167). -/
def Obligations.EndOfAPassAndReplay : Prop :=
  (∀ s : State,
     (∀ c, s.scanner.chosen = some c →
       s.endPass = { s with scanner := { s.scanner with
         activity := .replaying (skipUnwritten s.inRegion c.entries).1,
         damage := s.scanner.damage || (skipUnwritten s.inRegion c.entries).2 } }) ∧
     (s.scanner.chosen = none →
       let counter : Word := match s.scanner.highest with
         | none => 1
         | some n => if n = 4294967295 then 1 else n + 1
       let ended := { s with
         op := .running
         scanner := { s.scanner with activity := .idle }
         journal := { s.journal with head := 0, tail := 0, fill := 0, seqCounter := counter } }
       (s.scanner.damage = false → s.endPass = ended) ∧
       (s.scanner.damage = true → s.endPass = ended.setFlag .recoveryDamage))) ∧
  (∀ (inside : Nat → Bool) (entries : List (Word × Word)),
     ∃ skipped, entries = skipped ++ (skipUnwritten inside entries).1 ∧
       (∀ p ∈ skipped, entryMask p.1 = 0 ∨ inside (entryWord p.1).toNat = true) ∧
       (∀ p rest, (skipUnwritten inside entries).1 = p :: rest →
         entryMask p.1 ≠ 0 ∧ inside (entryWord p.1).toNat = false) ∧
       ((skipUnwritten inside entries).2 = true ↔ ∃ p ∈ skipped, inside (entryWord p.1).toNat = true)) ∧
  (∀ (s : State) (word : Addr) (mask : Mask) (data : Word),
     s.mp.inFlight = some { requester := .scanner, op := .write word mask data } →
     let written := { s with bus := .none, mp := { s.mp with inFlight := none }, mem := s.mem.writeWord word mask data }
     (∀ p rest, s.scanner.activity = .replaying (p :: rest) →
       exec .replayWriteCompletion s = .next (State.settle
         { written with scanner := { s.scanner with
           activity := .replaying (skipUnwritten s.inRegion rest).1,
           damage := s.scanner.damage || (skipUnwritten s.inRegion rest).2 } })) ∧
     (∀ c : ChosenRecord, s.scanner.activity = .replaying [] → s.scanner.chosen = some c →
       exec .replayWriteCompletion s = .next (State.settle
         { written.count .replayedRecords with
           scanner := { s.scanner with activity := .scanning, pass := s.scanner.pass + 1, offset := 0, buffer := [],
                                       chosen := none },
           ml := { (s.count .replayedRecords).ml with
             lastEnd := some { slot := (c.origin.extractLsb' 8 2).toFin, source := (c.origin.extractLsb' 0 4).toFin,
                               outcome := .replayed c.seqNo } } })))

/-! ### Configuration Link -/

/-- RANDOM_READ_END: an EEPROM-READ ends with the byte as result byte; the stored-guard operation reads the check byte
next, and then forms the new flags byte and the check byte that keeps the image's sum, and writes the flags byte
(R186 to R188).

DATA_BYTE_ACKNOWLEDGE: the link begins to poll, its timer at 0 (R187, R188).

ACKNOWLEDGE_POLLING_END within the polling window: the EEPROM holds the byte (that its cell changes here: log 10); an
EEPROM-WRITE ends, the flags write is followed by the check write, and at the end of the check write the in-use stored
guard takes the value (R187, R188).

MISSING_ACKNOWLEDGE of an address or data byte, and POLLING_WINDOW_EXPIRY, the tick that brings the polling timer to
20,000 (log 12), end the operation in error: the error flag and CFG-ERROR are set, the in-use guard and the result byte
stay, and later steps are not made. At the expiry the cell of an EEPROM-WRITE or of the flags byte holds the old byte or
the new one, that of the check byte the old one (R186 to R188; log 10, log 20). An acknowledge outside the window, which
no run meets, ends the operation in the same error. -/
def Obligations.EepromAnswers : Prop :=
  (∀ s : State,
     (∀ a, s.cl.op = some (.read a) →
       exec .randomReadEnd s = .next (State.endReloadWait
         { s with bus := .none, cl := { s.cl with op := none, result := s.eeprom.get a.toNat } })) ∧
     (∀ w v, s.cl.op = some (.guardReadFlags w v) →
       exec .randomReadEnd s = .next
         { s with bus := .none,
                  cl := { s.cl with op := some (.guardReadCheck w v (s.eeprom.get (22 + 7 * w.val))) } }) ∧
     (∀ w v f, s.cl.op = some (.guardReadCheck w v f) →
       ∃ new check : Byte,
         exec .randomReadEnd s = .next
           { s with bus := .none, cl := { s.cl with op := some (.guardWriteFlags w v new check .sending) } } ∧
         (∀ i, i < 8 → new.getLsbD i = if i = 3 then v else f.getLsbD i) ∧
         check + new = s.eeprom.get 15 + f)) ∧
  (∀ s : State,
     (∀ a d, s.cl.op = some (.write a d .sending) →
       exec .dataByteAcknowledge s = .next
         { s with bus := .none, cl := { s.cl with op := some (.write a d (.polling 0)) } }) ∧
     (∀ w v f c, s.cl.op = some (.guardWriteFlags w v f c .sending) →
       exec .dataByteAcknowledge s = .next
         { s with bus := .none, cl := { s.cl with op := some (.guardWriteFlags w v f c (.polling 0)) } }) ∧
     (∀ w v c, s.cl.op = some (.guardWriteCheck w v c .sending) →
       exec .dataByteAcknowledge s = .next
         { s with bus := .none, cl := { s.cl with op := some (.guardWriteCheck w v c (.polling 0)) } })) ∧
  (∀ (s : State) (n : Nat), n < 20000 →
     (∀ a d, s.cl.op = some (.write a d (.polling n)) →
       exec .acknowledgePollingEnd s = .next (State.endReloadWait
         { s with bus := .none, eeprom := s.eeprom.set a.toNat d, cl := { s.cl with op := none } })) ∧
     (∀ w v f c, s.cl.op = some (.guardWriteFlags w v f c (.polling n)) →
       exec .acknowledgePollingEnd s = .next
         { s with bus := .none, eeprom := s.eeprom.set (22 + 7 * w.val) f,
                  cl := { s.cl with op := some (.guardWriteCheck w v c .sending) } }) ∧
     (∀ (w : WindowId) (v : Bool) (c : Byte), s.cl.op = some (.guardWriteCheck w v c (.polling n)) →
       exec .acknowledgePollingEnd s = .next (State.endReloadWait
         { s with bus := .none, eeprom := s.eeprom.set 15 c, cl := { s.cl with op := none },
                  windows := s.windows.set w { s.windows[w] with storedGuard := v } }))) ∧
  (∀ (s : State) (op : LinkOp), s.cl.op = some op →
     let failed := fun (eeprom : Memory) (freeCount : Nat) =>
       State.endReloadWait ({ s with bus := .none, eeprom, freeCount,
                                     cl := { s.cl with op := none, error := true } }.setFlag .cfgError)
     (op.polledCell = none → exec .missingAcknowledge s = .next (failed s.eeprom s.freeCount)) ∧
     (∀ (c : Instr) (n : Nat),
       (c = .pollingWindowExpiry ∧ 20000 ≤ n + 1) ∨ (c = .acknowledgePollingEnd ∧ 20000 ≤ n) →
       (∀ a d, op = .write a d (.polling n) → ∃ eeprom, (eeprom = s.eeprom ∨ eeprom = s.eeprom.set a.toNat d) ∧
         exec c s = .next (failed eeprom (s.freeCount + 1))) ∧
       (∀ w v f b, op = .guardWriteFlags w v f b (.polling n) →
         ∃ eeprom, (eeprom = s.eeprom ∨ eeprom = s.eeprom.set (22 + 7 * w.val) f) ∧
           exec c s = .next (failed eeprom (s.freeCount + 1))) ∧
       (∀ w v b, op = .guardWriteCheck w v b (.polling n) → exec c s = .next (failed s.eeprom s.freeCount))))

/-! ### Management Link -/

/-- CLEAR_FLAGS, ALERT_MASK and LOCK_GUARDS: the named flags clear and the others stay; the mask in use is the item's bits
8 to 0; the lock is set. Each becomes the selected item with result OK and changes nothing else (R177, R179, R180,
R185).

SET_RUNTIME_GUARD: the entry's runtime guard takes the value, present or not, locked or not, in every operating
state; an index above 7 or a value above 1 is answered RANGE and changes nothing else (R178, R184; selection: log 16). -/
def Obligations.ItemsThatActAtOnce : Prop :=
  (∀ (s : State) (mask : BitVec 16), s.power = .up →
     (∃ t : State, exec (.clearFlags mask) s = .next t ∧
       t = { s with bus := .none, ml := { s.ml with flags := t.ml.flags, selected := .clearFlags, result := .ok } } ∧
       ∀ f : Flag, t.flag f = (s.flag f && !mask.getLsbD f.bit.val)) ∧
     exec (.alertMask mask) s = .next
       { s with bus := .none,
                ml := { s.ml with alertMask := mask.extractLsb' 0 9, selected := .alertMask, result := .ok } } ∧
     exec .lockGuards s = .next
       { s with bus := .none, ml := { s.ml with guardLock := true, selected := .lockGuards, result := .ok } }) ∧
  (∀ (s : State) (index value : Byte), s.power = .up →
     (∀ i : WindowId, index.toNat = i.val → value.toNat ≤ 1 →
       exec (.setRuntimeGuard index value) s = .next
         { s with bus := .none, windows := s.windows.set i { s.windows[i] with runtimeGuard := decide (value = 1) },
                  ml := { s.ml with selected := .setRuntimeGuard, result := .ok } }) ∧
     (8 ≤ index.toNat ∨ 2 ≤ value.toNat →
       exec (.setRuntimeGuard index value) s = .next
         { s with bus := .none, ml := { s.ml with selected := .setRuntimeGuard, result := .range } }))

/-- The ALERT-MASK item (R193): with no further byte it is selected for reading, with one it is SHORT, with two or more
it writes the mask, as the command ALERT_MASK does; a read returns the mask in use. -/
def Obligations.AlertMaskIsReadAndWritten : Prop :=
  ∀ (s : State) (low high : Byte) (more : List Byte), s.power = .up →
    let read := { s with bus := .none, ml := { s.ml with selected := .alertMask, result := .ok } }
    let written := { s with bus := .none, ml := { s.ml with alertMask := (high ++ low : BitVec 16).extractLsb' 0 9,
                                                            selected := .alertMask, result := .ok } }
    let returns := fun (x : State) =>
      some [(0 : Byte), x.ml.alertMask.extractLsb' 0 8, BitVec.ofBool (x.ml.alertMask.getLsbD 8) |>.setWidth 8]
    exec (.managementWriteTransaction [0x03]) s = .next read ∧ read.readTransaction = returns read ∧
    exec (.managementWriteTransaction [0x03, low]) s = .next
      { s with bus := .none, ml := { s.ml with result := .short } } ∧
    exec (.managementWriteTransaction (0x03 :: low :: high :: more)) s = .next written ∧
    exec (.alertMask (high ++ low)) s = .next written ∧ written.readTransaction = returns written

/-- A write transaction that is no whole command: no byte changes nothing, an unknown number leaves the selection and
gives UNKNOWN, a short command leaves the selection and gives SHORT, a read item is selected with result OK. Nothing else
changes (R177, R178). -/
def Obligations.WriteTransactionSelects : Prop :=
  ∀ (s : State) (n : Byte) (rest : List Byte), s.power = .up →
    exec (.managementWriteTransaction []) s = .next { s with bus := .none } ∧
    (Item.ofNumber n = none → exec (.managementWriteTransaction (n :: rest)) s = .next
      { s with bus := .none, ml := { s.ml with result := .unknown } }) ∧
    (∀ item, Item.ofNumber n = some item → item.commandLength = none →
      exec (.managementWriteTransaction (n :: rest)) s = .next
        { s with bus := .none, ml := { s.ml with selected := item, result := .ok } }) ∧
    (∀ item length, Item.ofNumber n = some item → item.commandLength = some length → rest.length < length →
      (item ≠ .alertMask ∨ rest ≠ []) →
      exec (.managementWriteTransaction (n :: rest)) s = .next
        { s with bus := .none, ml := { s.ml with result := .short } })

/-- What the Management Link shows. A read transaction returns the item result and, behind it, the data of the selected
item, in the bytes and codes of spec/12: STATUS, FLAGS, ALERT-MASK, a counter, LAST-FAULT, LAST-END, EEPROM-RESULT;
an EMPTY record shows zeros and a command item no data. Without power, and while power-on reset is in force, it returns
nothing. READY is high in RUNNING, and ALERT_N asserted while a flag is set whose bit is set in the alert mask, both only
with power and out of reset (R156, R157, R177 to R183, R186, R191, R193; that a read is no command: log 25). -/
def Obligations.ManagementLinkShows : Prop :=
  (∀ s : State,
     (s.power ≠ .up → s.readTransaction = none) ∧
     (s.ready = true ↔ s.power = .up ∧ s.op = .running) ∧
     (s.alert = true ↔ s.power = .up ∧ ∃ f : Flag, s.flag f = true ∧ s.ml.alertMask.getLsbD f.bit.val = true)) ∧
  (∀ s : State, s.power = .up →
     let byte := fun (n i : Nat) => BitVec.ofNat 8 (n / 256 ^ i)
     let bool := fun (b : Bool) => if b then 1 else 0
     let result : Byte := match s.ml.result with
       | .ok => 0 | .busy => 1 | .locked => 2 | .range => 3 | .short => 4 | .unknown => 5
     let state : Byte := match s.op with
       | .loading => 0 | .unconfigured => 1 | .recovering => 2 | .running => 3 | .reloading => 4
     let port : Byte := match s.mp.port with
       | .active => 0 | .quiesced => 1
     let slot := fun (k : SlotId) => match (s.slot k).state with
       | .free => (0 : Byte) | .filling => 1 | .ready => 2 | .aborted => 3 | .queued => 4 | .sealing => 5
       | .sealed => 6 | .applying => 7
     let kind := fun (k : RequestKind) => match k with
       | .read => (1 : Byte) | .write => 2 | .openMark => 3 | .commit => 4 | .discard => 5 | .order => 6 | .flush => 7
       | .mark => 8
     let code := fun (c : FaultCode) => match c with
       | .align => (1 : Byte) | .mask => 2 | .hidden => 3 | .guarded => 4 | .ungrouped => 5 | .aborted => 6
       | .noGroup => 7 | .count => 8 | .conflict => 9 | .noSpace => 10 | .unconfigured => 11 | .parity => 12
       | .badMark => 13
     let cause := fun (c : AbortCause) => match c with
       | .window => (1 : Byte) | .excess => 2 | .short => 3 | .nested => 4 | .guardProtected => 5 | .conflict => 6
     let shows := fun (data : List Byte) => s.readTransaction = some (result :: data)
     (s.ml.selected = .status → shows
       [state, port, byte s.journal.head 0, byte s.journal.head 1, byte s.journal.tail 0, byte s.journal.tail 1,
        byte s.journal.fill 0, byte s.journal.fill 1, byte s.journal.fill 2, byte s.journal.seqCounter.toNat 0,
        byte s.journal.seqCounter.toNat 1, byte s.journal.seqCounter.toNat 2, byte s.journal.seqCounter.toNat 3,
        slot 0, slot 1, slot 2, slot 3,
        bool s.ml.guardLock + 2 * bool s.cl.op.isSome + 4 * bool s.cl.error]) ∧
     (s.ml.selected = .flags → shows [byte s.ml.flags.toNat 0, byte s.ml.flags.toNat 1]) ∧
     (s.ml.selected = .alertMask → shows [byte s.ml.alertMask.toNat 0, byte s.ml.alertMask.toNat 1]) ∧
     (∀ c : Counter, s.ml.selected = .counter c →
       shows [byte (s.counter c).toNat 0, byte (s.counter c).toNat 1, byte (s.counter c).toNat 2,
              byte (s.counter c).toNat 3]) ∧
     (s.ml.selected = .lastFault →
       (s.ml.lastFault = none → shows [0, 0, 0, 0, 0, 0]) ∧
       ∀ r, s.ml.lastFault = some r →
         shows [byte r.source.val 0, kind r.kind, byte r.addr.toNat 0, byte r.addr.toNat 1, byte r.addr.toNat 2,
                code r.code]) ∧
     (s.ml.selected = .lastEnd →
       (s.ml.lastEnd = none → shows [0, 0, 0, 0, 0, 0, 0, 0, 0]) ∧
       ∀ slot source outcome, s.ml.lastEnd = some { slot, source, outcome } →
         let ended := fun (data : List Byte) => shows (byte slot.val 0 :: byte source.val 0 :: data)
         (∀ n : Word, outcome = .sealed n →
           ended [1, 0, 0, byte n.toNat 0, byte n.toNat 1, byte n.toNat 2, byte n.toNat 3]) ∧
         (∀ n : Word, outcome = .replayed n →
           ended [1, 3, 0, byte n.toNat 0, byte n.toNat 1, byte n.toNat 2, byte n.toNat 3]) ∧
         (∀ reason, outcome = .discarded reason → ended [2, 1, reason, 0, 0, 0, 0]) ∧
         (outcome = .discardedReset → ended [2, 2, 0, 0, 0, 0, 0]) ∧
         (∀ c, outcome = .aborted c → ended [3, 4, cause c, 0, 0, 0, 0])) ∧
     (s.ml.selected = .eepromResult → shows [bool s.cl.op.isSome + 2 * bool s.cl.error, s.cl.result]) ∧
     (s.ml.selected ∈ [Item.clearFlags, .setRuntimeGuard, .lockGuards, .setStoredGuard, .eepromRead, .eepromWrite,
         .reload, .linkReset] → shows [])) ∧
  ([0x00#8, 0x01, 0x03, 0x10, 0x11, 0x12, 0x13, 0x14, 0x15, 0x16, 0x17, 0x18, 0x19, 0x20, 0x21, 0x42].map
      Item.ofNumber =
    [Item.status, .flags, .alertMask, .counter .sealedGroups, .counter .abortedGroups, .counter .discardedGroups,
     .counter .replayedRecords, .counter .tornCandidates, .counter .holdExpiries, .counter .abandonedNotices,
     .counter .guardRefusals, .counter .parityFaults, .counter .ringWaits, .lastFault, .lastEnd, .eepromResult].map some) ∧
  ([Flag.cfgError, .recoveryDamage, .holdExpired, .collectExpired, .groupAborted, .guardRefused, .parity, .powerWarn,
      .ringWait].map (fun f => f.bit.val) = [0, 1, 2, 3, 4, 5, 6, 7, 8])

/-- SET_STORED_GUARD, EEPROM_READ and EEPROM_WRITE: refused RANGE, then LOCKED (not EEPROM_READ), then BUSY, with no
effect on the link; else the operation begins, busy set and error clear (R178, R185 to R188; selection: log 16). -/
def Obligations.LinkItemsBeginOrAreRefused : Prop :=
  ∀ (s : State) (index value addr data : Byte), s.power = .up →
    let answered := fun (x : State) (item : Item) (result : ItemResult) =>
      { x with bus := .none, ml := { s.ml with selected := item, result } }
    let begun := fun (op : LinkOp) => { s with cl := { s.cl with op := some op, error := false } }
    (8 ≤ index.toNat ∨ 2 ≤ value.toNat →
      exec (.setStoredGuard index value) s = .next (answered s .setStoredGuard .range)) ∧
    (∀ i : WindowId, index.toNat = i.val → value.toNat ≤ 1 →
      (s.ml.guardLock = true → exec (.setStoredGuard index value) s = .next (answered s .setStoredGuard .locked)) ∧
      (s.ml.guardLock = false → s.cl.op ≠ none ∨ s.op = .loading →
        exec (.setStoredGuard index value) s = .next (answered s .setStoredGuard .busy)) ∧
      (s.ml.guardLock = false → s.cl.op = none → s.op ≠ .loading →
        exec (.setStoredGuard index value) s = .next
          (answered (begun (.guardReadFlags i (decide (value = 1)))) .setStoredGuard .ok))) ∧
    (s.ml.guardLock = true → exec (.eepromWrite addr data) s = .next (answered s .eepromWrite .locked)) ∧
    (s.cl.op ≠ none ∨ s.op = .loading →
      exec (.eepromRead addr) s = .next (answered s .eepromRead .busy) ∧
      (s.ml.guardLock = false → exec (.eepromWrite addr data) s = .next (answered s .eepromWrite .busy))) ∧
    (s.cl.op = none → s.op ≠ .loading →
      exec (.eepromRead addr) s = .next (answered (begun (.read addr)) .eepromRead .ok) ∧
      (s.ml.guardLock = false →
        exec (.eepromWrite addr data) s = .next (answered (begun (.write addr data .sending)) .eepromWrite .ok)))

/-! ### Laws of every step -/

/-- Flags stay set and counters never fall, but for CLEAR_FLAGS, a write transaction and the power commands, and the
guard lock stays set but for the power commands (R179, R181, R185). -/
def Obligations.FlagsCountersAndLockPersist : Prop :=
  ∀ (c : Instr) (s t : State), c ≠ .powerOnReset → c ≠ .powerLoss → exec c s = .next t →
    (∀ n, (s.counter n).toNat ≤ (t.counter n).toNat) ∧ (s.ml.guardLock = true → t.ml.guardLock = true) ∧
    ((∀ m, c ≠ .clearFlags m) → (∀ b, c ≠ .managementWriteTransaction b) →
      ∀ f, s.flag f = true → t.flag f = true)

/-- Every step keeps the two memories in canonical form, the port's law, the bound of the Posted Write Queue and the bound
of the ring with its counter (R91, R119, R152). -/
def Obligations.StepKeepsTheBlocksSound : Prop :=
  ∀ s t : State, step s = .next t →
    (MemoriesCanonical s → MemoriesCanonical t) ∧ (PortSound s → PortSound t) ∧ (QueueBounded s → QueueBounded t) ∧
    (RingSound s → RingSound t)

/-- Every step keeps the claims sound: no memory word is claimed twice, and each entry belongs to a slot that keeps
claims (R55, R60). -/
def Obligations.StepKeepsClaimsSound : Prop :=
  ∀ s t : State, ClaimsSound s → step s = .next t → ClaimsSound t

/-- Every step keeps the reservations sound; and then a FILLING group always finds a free entry, so no group write waits
or fails for want of one (R30, R55, R56). -/
def Obligations.StepKeepsReservationsSound : Prop :=
  (∀ s t : State, ReservationsSound s → ClaimsSound s → step s = .next t → ReservationsSound t) ∧
  ∀ (s : State) (k : SlotId), ReservationsSound s → (s.slot k).state = .filling → s.freeEntry ≠ none

/-- Every step keeps the groups sound: links and owners, the Commit Queue, the Apply Queue, one slot SEALING, one
APPLYING (R26, R126, R132). -/
def Obligations.StepKeepsGroupsSound : Prop :=
  ∀ s t : State, GroupsSound s → step s = .next t → GroupsSound t

/-- Every step keeps the operation in flight tied to what its requester asked for: a held READ's word, the WRITING head
entry's bytes, the seal's next word, the home write or retire mark that is due, the scanner's read or write; so what a
completion puts into the RAM is that entry's or that word's (R4, R97, R105, R124, R133, R134, R148, R165, R167). Nothing
is in flight without power, and the journal and apply work is over outside RUNNING and RELOAD's wait (R157, R174). -/
def Obligations.StepKeepsTheFlightSound : Prop :=
  ∀ s t : State, FlightSound s → GroupsSound s → step s = .next t → FlightSound t

/-- Every step keeps the Window Table sound: present windows apart upstream and in memory, and apart from the journal
region (R10). -/
def Obligations.StepKeepsTheTableSound : Prop :=
  ∀ s t : State, TableSound s → step s = .next t → TableSound t

/-- Every law holds at reset. -/
def Obligations.ResetIsSound : Prop :=
  MemoriesCanonical State.reset ∧ PortSound State.reset ∧ QueueBounded State.reset ∧ RingSound State.reset ∧
  ClaimsSound State.reset ∧ ReservationsSound State.reset ∧ GroupsSound State.reset ∧ TableSound State.reset ∧
  FlightSound State.reset
end

