-- ==== Sys2Proof/Laws/Memory.lean ====
section
/-! SUPPORT. Byte lanes and the two memories: every operation keeps the canonical form, a byte written is the byte read,
and the other bytes read as before. -/

namespace Sys2Proof.Machine

/-! ### Lanes -/

/-- A word is its four lanes. -/
theorem ofLanes_lane (w : Word) : (ofLanes fun k => lane w k) = w := by
  simp only [ofLanes, lane]
  apply BitVec.eq_of_getLsbD_eq
  intro i hi
  simp only [BitVec.getLsbD_append, BitVec.getLsbD_extractLsb']
  have h : i < 8 ∨ (8 ≤ i ∧ i < 16) ∨ (16 ≤ i ∧ i < 24) ∨ (24 ≤ i ∧ i < 32) := by omega
  rcases h with h | ⟨a, b⟩ | ⟨a, b⟩ | ⟨a, b⟩
  · simp [h]
  · simp [show ¬ i < 8 by omega, show i - 8 < 8 by omega, show 8 + (i - 8) = i by omega]
  · simp [show ¬ i < 8 by omega, show ¬ i - 8 < 8 by omega, show i - 8 - 8 < 8 by omega,
      show 16 + (i - 8 - 8) = i by omega]
  · simp [show ¬ i < 8 by omega, show ¬ i - 8 < 8 by omega, show ¬ i - 8 - 8 < 8 by omega,
      show i - 8 - 8 - 8 < 8 by omega, show 24 + (i - 8 - 8 - 8) = i by omega]

/-- The lanes of a word built of lanes. -/
@[simp] theorem lane_ofLanes (f : Fin 4 → Byte) (k : Fin 4) : lane (ofLanes f) k = f k := by
  apply BitVec.eq_of_getLsbD_eq
  intro i hi
  simp only [lane, ofLanes, BitVec.getLsbD_extractLsb', BitVec.getLsbD_append, hi, decide_true, Bool.true_and]
  fin_cases k
  · simp [hi]
  · simp [show ¬ 8 + i < 8 by omega, hi]
  · simp [show ¬ 16 + i < 8 by omega, show ¬ 16 + i - 8 < 8 by omega, show 16 + i - 8 - 8 = i by omega, hi]
  · simp [show ¬ 24 + i < 8 by omega, show ¬ 24 + i - 8 < 8 by omega, show ¬ 24 + i - 8 - 8 < 8 by omega,
      show 24 + i - 8 - 8 - 8 = i by omega]

/-- Two words with the same lanes are equal. -/
theorem eq_of_lanes {v w : Word} (h : ∀ k, lane v k = lane w k) : v = w := by
  rw [← ofLanes_lane v, ← ofLanes_lane w]
  congr 1
  exact funext h

/-- A merged word, lane by lane. -/
@[simp] theorem lane_mergeLanes (old new : Word) (m : Mask) (k : Fin 4) :
    lane (mergeLanes old new m) k = if m.getLsbD k.val then lane new k else lane old k := by
  simp [mergeLanes]

/-- Masked data, lane by lane. -/
theorem lane_maskedData (data : Word) (m : Mask) (k : Fin 4) :
    lane (maskedData data m) k = if m.getLsbD k.val then lane data k else 0 := by
  have zero : lane 0 k = 0 := by simp [lane]
  rw [maskedData, lane_mergeLanes, zero]

/-- Merging with no lane in the mask changes nothing. -/
@[simp] theorem mergeLanes_zero (old new : Word) : mergeLanes old new 0 = old := by
  apply eq_of_lanes
  simp

/-! ### Bytes -/

/-- A byte below every listed address reads as 0. -/
theorem Memory.get_below : ∀ {m : Memory} {lo a : Nat}, Memory.wfFrom lo m = true → a < lo → m.get a = 0
  | [], _, _, _, _ => rfl
  | (b, v) :: m, lo, a, h, ha => by
    simp only [Memory.wfFrom, Bool.and_eq_true, decide_eq_true_eq] at h
    have hb : b ≠ a := by omega
    simp only [Memory.get, hb, if_false]
    exact Memory.get_below h.2 (by omega)

/-- A lower bound may be lowered. -/
theorem Memory.wfFrom_mono {m : Memory} {lo lo' : Nat} (h : Memory.wfFrom lo m = true) (hl : lo' ≤ lo) :
    Memory.wfFrom lo' m = true := by
  cases m with
  | nil => rfl
  | cons c m =>
    simp only [Memory.wfFrom, Bool.and_eq_true, decide_eq_true_eq] at h ⊢
    exact ⟨⟨by omega, h.1.2⟩, h.2⟩

/-- Writing a byte keeps the canonical form. -/
theorem Memory.wfFrom_set : ∀ {m : Memory} {lo a : Nat} (v : Byte), Memory.wfFrom lo m = true → lo ≤ a →
    Memory.wfFrom lo (m.set a v) = true
  | [], lo, a, v, _, ha => by
    simp only [Memory.set]
    split
    · rfl
    · rename_i hv
      simp only [Memory.wfFrom, Bool.and_eq_true, decide_eq_true_eq, and_true]
      exact ⟨ha, hv⟩
  | (b, w) :: m, lo, a, v, h, ha => by
    have h' := h
    simp only [Memory.wfFrom, Bool.and_eq_true, decide_eq_true_eq] at h'
    simp only [Memory.set]
    split
    · rename_i hab
      split
      · exact h
      · rename_i hv
        simp only [Memory.wfFrom, Bool.and_eq_true, decide_eq_true_eq]
        exact ⟨⟨ha, hv⟩, ⟨by omega, h'.1.2⟩, h'.2⟩
    · split
      · rename_i hab
        subst hab
        split
        · exact Memory.wfFrom_mono h'.2 (by omega)
        · rename_i hv
          simp only [Memory.wfFrom, Bool.and_eq_true, decide_eq_true_eq]
          exact ⟨⟨ha, hv⟩, h'.2⟩
      · rename_i h1 h2
        simp only [Memory.wfFrom, Bool.and_eq_true, decide_eq_true_eq]
        exact ⟨h'.1, Memory.wfFrom_set v h'.2 (by omega)⟩

/-- Writing a byte keeps the canonical form. -/
theorem Memory.wf_set {m : Memory} (h : m.wf = true) (a : Nat) (v : Byte) : (m.set a v).wf = true :=
  Memory.wfFrom_set v h (Nat.zero_le a)

/-- The byte written is the byte read. -/
theorem Memory.get_set_self : ∀ {m : Memory} {lo : Nat} (a : Nat) (v : Byte), Memory.wfFrom lo m = true →
    (m.set a v).get a = v
  | [], _, a, v, _ => by
    simp only [Memory.set]
    split
    · rename_i hv; simp [Memory.get, hv]
    · simp [Memory.get]
  | (b, w) :: m, lo, a, v, h => by
    have h' := h
    simp only [Memory.wfFrom, Bool.and_eq_true, decide_eq_true_eq] at h'
    simp only [Memory.set]
    split
    · rename_i hab
      split
      · rename_i hv
        have hb : b ≠ a := by omega
        simp only [Memory.get, hb, if_false, hv]
        exact Memory.get_below h'.2 (by omega)
      · simp [Memory.get]
    · split
      · rename_i hab
        subst hab
        split
        · rename_i hv
          rw [Memory.get_below h'.2 (by omega), hv]
        · simp [Memory.get]
      · rename_i h1 h2
        have hb : b ≠ a := fun e => h2 e.symm
        simp only [Memory.get, hb, if_false]
        exact Memory.get_set_self a v h'.2

/-- The other bytes read as before. -/
theorem Memory.get_set_ne : ∀ (m : Memory) {a c : Nat} (v : Byte), c ≠ a → (m.set a v).get c = m.get c
  | [], a, c, v, h => by
    simp only [Memory.set]
    split
    · rfl
    · simp [Memory.get, Ne.symm h]
  | (b, w) :: m, a, c, v, h => by
    simp only [Memory.set]
    split
    · split
      · rfl
      · simp [Memory.get, Ne.symm h]
    · split
      · rename_i hab
        subst hab
        split
        · simp [Memory.get, Ne.symm h]
        · simp [Memory.get, Ne.symm h]
      · simp only [Memory.get]
        split
        · rfl
        · exact Memory.get_set_ne m v h

/-- A byte after a write of one byte. -/
theorem Memory.get_set {m : Memory} (h : m.wf = true) (a c : Nat) (v : Byte) :
    (m.set a v).get c = if c = a then v else m.get c := by
  split
  · rename_i e; subst e; exact Memory.get_set_self c v h
  · rename_i e; exact Memory.get_set_ne m v e

/-- Equal memories are equal data. -/
theorem Memory.ext_get : ∀ {m n : Memory} {lo : Nat}, Memory.wfFrom lo m = true → Memory.wfFrom lo n = true →
    (∀ a, m.get a = n.get a) → m = n
  | [], [], _, _, _, _ => rfl
  | [], (b, w) :: n, lo, _, hn, h => by
    simp only [Memory.wfFrom, Bool.and_eq_true, decide_eq_true_eq] at hn
    exact absurd (by simpa [Memory.get] using (h b).symm) hn.1.2
  | (a, v) :: m, [], lo, hm, _, h => by
    simp only [Memory.wfFrom, Bool.and_eq_true, decide_eq_true_eq] at hm
    exact absurd (by simpa [Memory.get] using h a) hm.1.2
  | (a, v) :: m, (b, w) :: n, lo, hm, hn, h => by
    have hm' := hm
    have hn' := hn
    simp only [Memory.wfFrom, Bool.and_eq_true, decide_eq_true_eq] at hm' hn'
    have hab : a = b := by
      rcases Nat.lt_trichotomy a b with hlt | heq | hgt
      · have := h a
        simp only [Memory.get, if_true, show b ≠ a by omega, if_false] at this
        rw [Memory.get_below hn'.2 (by omega)] at this
        exact absurd this hm'.1.2
      · exact heq
      · have := h b
        simp only [Memory.get, if_true, show a ≠ b by omega, if_false] at this
        rw [Memory.get_below hm'.2 (by omega)] at this
        exact absurd this.symm hn'.1.2
    subst hab
    have hvw : v = w := by simpa [Memory.get] using h a
    subst hvw
    have rest : m = n := by
      apply Memory.ext_get hm'.2 hn'.2
      intro c
      by_cases hc : a = c
      · subst hc
        rw [Memory.get_below hm'.2 (by omega), Memory.get_below hn'.2 (by omega)]
      · simpa [Memory.get, hc] using h c
    rw [rest]

/-! ### Words -/

/-- Lane addresses of one word differ lane by lane. -/
theorem laneAddr_inj {w : Addr} {j k : Fin 4} (h : laneAddr w j = laneAddr w k) : j = k := by
  apply Fin.ext
  simp only [laneAddr] at h
  omega

/-- Writing one lane keeps the canonical form. -/
theorem Memory.wf_writeLane {m : Memory} (h : m.wf = true) (w : Addr) (mask : Mask) (data : Word) (k : Fin 4) :
    (m.writeLane w mask data k).wf = true := by
  unfold Memory.writeLane
  split
  · exact Memory.wf_set h _ _
  · exact h

/-- Writing a word keeps the canonical form. -/
theorem Memory.wf_writeWord {m : Memory} (h : m.wf = true) (w : Addr) (mask : Mask) (data : Word) :
    (m.writeWord w mask data).wf = true :=
  Memory.wf_writeLane (Memory.wf_writeLane (Memory.wf_writeLane (Memory.wf_writeLane h _ _ _ _) _ _ _ _) _ _ _ _)
    _ _ _ _

/-- Writing one lane leaves every other byte as it was. -/
theorem Memory.get_writeLane_ne (m : Memory) (w : Addr) (mask : Mask) (data : Word) (k : Fin 4) {a : Nat}
    (h : a ≠ laneAddr w k) : (m.writeLane w mask data k).get a = m.get a := by
  unfold Memory.writeLane
  split
  · exact Memory.get_set_ne m _ h
  · rfl

/-- Writing a word leaves every byte outside it as it was. -/
theorem Memory.get_writeWord_outside (m : Memory) (w : Addr) (mask : Mask) (data : Word) {a : Nat}
    (h : ∀ k, a ≠ laneAddr w k) : (m.writeWord w mask data).get a = m.get a := by
  unfold Memory.writeWord
  rw [Memory.get_writeLane_ne _ _ _ _ _ (h 3), Memory.get_writeLane_ne _ _ _ _ _ (h 2),
    Memory.get_writeLane_ne _ _ _ _ _ (h 1), Memory.get_writeLane_ne _ _ _ _ _ (h 0)]

/-- The byte of a lane after that lane was written. -/
theorem Memory.get_writeLane_self {m : Memory} (h : m.wf = true) (w : Addr) (mask : Mask) (data : Word) (k : Fin 4) :
    (m.writeLane w mask data k).get (laneAddr w k) =
      if mask.getLsbD k.val then lane data k else m.get (laneAddr w k) := by
  unfold Memory.writeLane
  split
  · exact Memory.get_set_self _ _ h
  · rfl

/-- A lane of the word after a masked write: the lanes of the mask take the data, the others keep what they held
(R146). -/
theorem Memory.get_writeWord_lane {m : Memory} (h : m.wf = true) (w : Addr) (mask : Mask) (data : Word) (k : Fin 4) :
    (m.writeWord w mask data).get (laneAddr w k) =
      if mask.getLsbD k.val then lane data k else m.get (laneAddr w k) := by
  have ne : ∀ {i j : Fin 4}, i ≠ j → laneAddr w i ≠ laneAddr w j := fun hij e => hij (laneAddr_inj e)
  have h0 := Memory.wf_writeLane h w mask data 0
  have h1 := Memory.wf_writeLane h0 w mask data 1
  have h2 := Memory.wf_writeLane h1 w mask data 2
  unfold Memory.writeWord
  fin_cases k
  · show Memory.get _ (laneAddr w 0) = _
    rw [Memory.get_writeLane_ne _ _ _ _ _ (ne (by decide)), Memory.get_writeLane_ne _ _ _ _ _ (ne (by decide)),
      Memory.get_writeLane_ne _ _ _ _ _ (ne (by decide)), Memory.get_writeLane_self h]
    rfl
  · show Memory.get _ (laneAddr w 1) = _
    rw [Memory.get_writeLane_ne _ _ _ _ _ (ne (by decide)), Memory.get_writeLane_ne _ _ _ _ _ (ne (by decide)),
      Memory.get_writeLane_self h0, Memory.get_writeLane_ne _ _ _ _ _ (ne (by decide))]
    rfl
  · show Memory.get _ (laneAddr w 2) = _
    rw [Memory.get_writeLane_ne _ _ _ _ _ (ne (by decide)), Memory.get_writeLane_self h1,
      Memory.get_writeLane_ne _ _ _ _ _ (ne (by decide)), Memory.get_writeLane_ne _ _ _ _ _ (ne (by decide))]
    rfl
  · show Memory.get _ (laneAddr w 3) = _
    rw [Memory.get_writeLane_self h2, Memory.get_writeLane_ne _ _ _ _ _ (ne (by decide)),
      Memory.get_writeLane_ne _ _ _ _ _ (ne (by decide)), Memory.get_writeLane_ne _ _ _ _ _ (ne (by decide))]
    rfl

/-- The word read after a masked write of it (R146). -/
theorem Memory.readWord_writeWord {m : Memory} (h : m.wf = true) (w : Addr) (mask : Mask) (data : Word) :
    (m.writeWord w mask data).readWord w = mergeLanes (m.readWord w) data mask := by
  apply eq_of_lanes
  intro k
  simp [Memory.readWord, Memory.get_writeWord_lane h]

/-- The word read after a write of another word. -/
theorem Memory.readWord_writeWord_ne (m : Memory) {v w : Addr} (mask : Mask) (data : Word)
    (h : v.toNat / 4 ≠ w.toNat / 4) : (m.writeWord w mask data).readWord v = m.readWord v := by
  apply eq_of_lanes
  intro k
  simp only [Memory.readWord, lane_ofLanes]
  apply Memory.get_writeWord_outside
  intro j e
  simp only [laneAddr] at e
  omega

end Sys2Proof.Machine
end

