-- ==== Sys2Proof/Laws/State.lean ====
section
/-! SUPPORT. One lemma for each field that a named update leaves as it was, and what the update puts into the field it
changes. -/

namespace Sys2Proof.Machine

variable (s : State)

@[simp] theorem State.quiet_pending : (s.quiet).pending = s.pending := rfl
@[simp] theorem State.quiet_lines : (s.quiet).lines = s.lines := rfl
@[simp] theorem State.quiet_power : (s.quiet).power = s.power := rfl
@[simp] theorem State.quiet_op : (s.quiet).op = s.op := rfl
@[simp] theorem State.quiet_guardsCleared : (s.quiet).guardsCleared = s.guardsCleared := rfl
@[simp] theorem State.quiet_held : (s.quiet).held = s.held := rfl
@[simp] theorem State.quiet_windows : (s.quiet).windows = s.windows := rfl
@[simp] theorem State.quiet_region : (s.quiet).region = s.region := rfl
@[simp] theorem State.quiet_slots : (s.quiet).slots = s.slots := rfl
@[simp] theorem State.quiet_pool : (s.quiet).pool = s.pool := rfl
@[simp] theorem State.quiet_sources : (s.quiet).sources = s.sources := rfl
@[simp] theorem State.quiet_time : (s.quiet).time = s.time := rfl
@[simp] theorem State.quiet_posted : (s.quiet).posted = s.posted := rfl
@[simp] theorem State.quiet_journal : (s.quiet).journal = s.journal := rfl
@[simp] theorem State.quiet_apply : (s.quiet).apply = s.apply := rfl
@[simp] theorem State.quiet_mp : (s.quiet).mp = s.mp := rfl
@[simp] theorem State.quiet_scanner : (s.quiet).scanner = s.scanner := rfl
@[simp] theorem State.quiet_cl : (s.quiet).cl = s.cl := rfl
@[simp] theorem State.quiet_ml : (s.quiet).ml = s.ml := rfl
@[simp] theorem State.quiet_mem : (s.quiet).mem = s.mem := rfl
@[simp] theorem State.quiet_eeprom : (s.quiet).eeprom = s.eeprom := rfl
@[simp] theorem State.quiet_freeCount : (s.quiet).freeCount = s.freeCount := rfl

@[simp] theorem State.reply_pending (src : Source) (a : Answer) : (s.reply src a).pending = s.pending := rfl
@[simp] theorem State.reply_lines (src : Source) (a : Answer) : (s.reply src a).lines = s.lines := rfl
@[simp] theorem State.reply_power (src : Source) (a : Answer) : (s.reply src a).power = s.power := rfl
@[simp] theorem State.reply_op (src : Source) (a : Answer) : (s.reply src a).op = s.op := rfl
@[simp] theorem State.reply_guardsCleared (src : Source) (a : Answer) : (s.reply src a).guardsCleared = s.guardsCleared := rfl
@[simp] theorem State.reply_held (src : Source) (a : Answer) : (s.reply src a).held = s.held := rfl
@[simp] theorem State.reply_windows (src : Source) (a : Answer) : (s.reply src a).windows = s.windows := rfl
@[simp] theorem State.reply_region (src : Source) (a : Answer) : (s.reply src a).region = s.region := rfl
@[simp] theorem State.reply_slots (src : Source) (a : Answer) : (s.reply src a).slots = s.slots := rfl
@[simp] theorem State.reply_pool (src : Source) (a : Answer) : (s.reply src a).pool = s.pool := rfl
@[simp] theorem State.reply_sources (src : Source) (a : Answer) : (s.reply src a).sources = s.sources := rfl
@[simp] theorem State.reply_time (src : Source) (a : Answer) : (s.reply src a).time = s.time := rfl
@[simp] theorem State.reply_posted (src : Source) (a : Answer) : (s.reply src a).posted = s.posted := rfl
@[simp] theorem State.reply_journal (src : Source) (a : Answer) : (s.reply src a).journal = s.journal := rfl
@[simp] theorem State.reply_apply (src : Source) (a : Answer) : (s.reply src a).apply = s.apply := rfl
@[simp] theorem State.reply_mp (src : Source) (a : Answer) : (s.reply src a).mp = s.mp := rfl
@[simp] theorem State.reply_scanner (src : Source) (a : Answer) : (s.reply src a).scanner = s.scanner := rfl
@[simp] theorem State.reply_cl (src : Source) (a : Answer) : (s.reply src a).cl = s.cl := rfl
@[simp] theorem State.reply_ml (src : Source) (a : Answer) : (s.reply src a).ml = s.ml := rfl
@[simp] theorem State.reply_mem (src : Source) (a : Answer) : (s.reply src a).mem = s.mem := rfl
@[simp] theorem State.reply_eeprom (src : Source) (a : Answer) : (s.reply src a).eeprom = s.eeprom := rfl
@[simp] theorem State.reply_freeCount (src : Source) (a : Answer) : (s.reply src a).freeCount = s.freeCount := rfl

@[simp] theorem State.recordFault_pending (src : Source) (kind : RequestKind) (a : Addr) (code : FaultCode) : (s.recordFault src kind a code).pending = s.pending := rfl
@[simp] theorem State.recordFault_bus (src : Source) (kind : RequestKind) (a : Addr) (code : FaultCode) : (s.recordFault src kind a code).bus = s.bus := rfl
@[simp] theorem State.recordFault_lines (src : Source) (kind : RequestKind) (a : Addr) (code : FaultCode) : (s.recordFault src kind a code).lines = s.lines := rfl
@[simp] theorem State.recordFault_power (src : Source) (kind : RequestKind) (a : Addr) (code : FaultCode) : (s.recordFault src kind a code).power = s.power := rfl
@[simp] theorem State.recordFault_op (src : Source) (kind : RequestKind) (a : Addr) (code : FaultCode) : (s.recordFault src kind a code).op = s.op := rfl
@[simp] theorem State.recordFault_guardsCleared (src : Source) (kind : RequestKind) (a : Addr) (code : FaultCode) : (s.recordFault src kind a code).guardsCleared = s.guardsCleared := rfl
@[simp] theorem State.recordFault_held (src : Source) (kind : RequestKind) (a : Addr) (code : FaultCode) : (s.recordFault src kind a code).held = s.held := rfl
@[simp] theorem State.recordFault_windows (src : Source) (kind : RequestKind) (a : Addr) (code : FaultCode) : (s.recordFault src kind a code).windows = s.windows := rfl
@[simp] theorem State.recordFault_region (src : Source) (kind : RequestKind) (a : Addr) (code : FaultCode) : (s.recordFault src kind a code).region = s.region := rfl
@[simp] theorem State.recordFault_slots (src : Source) (kind : RequestKind) (a : Addr) (code : FaultCode) : (s.recordFault src kind a code).slots = s.slots := rfl
@[simp] theorem State.recordFault_pool (src : Source) (kind : RequestKind) (a : Addr) (code : FaultCode) : (s.recordFault src kind a code).pool = s.pool := rfl
@[simp] theorem State.recordFault_sources (src : Source) (kind : RequestKind) (a : Addr) (code : FaultCode) : (s.recordFault src kind a code).sources = s.sources := rfl
@[simp] theorem State.recordFault_time (src : Source) (kind : RequestKind) (a : Addr) (code : FaultCode) : (s.recordFault src kind a code).time = s.time := rfl
@[simp] theorem State.recordFault_posted (src : Source) (kind : RequestKind) (a : Addr) (code : FaultCode) : (s.recordFault src kind a code).posted = s.posted := rfl
@[simp] theorem State.recordFault_journal (src : Source) (kind : RequestKind) (a : Addr) (code : FaultCode) : (s.recordFault src kind a code).journal = s.journal := rfl
@[simp] theorem State.recordFault_apply (src : Source) (kind : RequestKind) (a : Addr) (code : FaultCode) : (s.recordFault src kind a code).apply = s.apply := rfl
@[simp] theorem State.recordFault_mp (src : Source) (kind : RequestKind) (a : Addr) (code : FaultCode) : (s.recordFault src kind a code).mp = s.mp := rfl
@[simp] theorem State.recordFault_scanner (src : Source) (kind : RequestKind) (a : Addr) (code : FaultCode) : (s.recordFault src kind a code).scanner = s.scanner := rfl
@[simp] theorem State.recordFault_cl (src : Source) (kind : RequestKind) (a : Addr) (code : FaultCode) : (s.recordFault src kind a code).cl = s.cl := rfl
@[simp] theorem State.recordFault_mem (src : Source) (kind : RequestKind) (a : Addr) (code : FaultCode) : (s.recordFault src kind a code).mem = s.mem := rfl
@[simp] theorem State.recordFault_eeprom (src : Source) (kind : RequestKind) (a : Addr) (code : FaultCode) : (s.recordFault src kind a code).eeprom = s.eeprom := rfl
@[simp] theorem State.recordFault_freeCount (src : Source) (kind : RequestKind) (a : Addr) (code : FaultCode) : (s.recordFault src kind a code).freeCount = s.freeCount := rfl

@[simp] theorem State.replyFault_pending (src : Source) (kind : RequestKind) (a : Addr) (code : FaultCode) : (s.replyFault src kind a code).pending = s.pending := rfl
@[simp] theorem State.replyFault_lines (src : Source) (kind : RequestKind) (a : Addr) (code : FaultCode) : (s.replyFault src kind a code).lines = s.lines := rfl
@[simp] theorem State.replyFault_power (src : Source) (kind : RequestKind) (a : Addr) (code : FaultCode) : (s.replyFault src kind a code).power = s.power := rfl
@[simp] theorem State.replyFault_op (src : Source) (kind : RequestKind) (a : Addr) (code : FaultCode) : (s.replyFault src kind a code).op = s.op := rfl
@[simp] theorem State.replyFault_guardsCleared (src : Source) (kind : RequestKind) (a : Addr) (code : FaultCode) : (s.replyFault src kind a code).guardsCleared = s.guardsCleared := rfl
@[simp] theorem State.replyFault_held (src : Source) (kind : RequestKind) (a : Addr) (code : FaultCode) : (s.replyFault src kind a code).held = s.held := rfl
@[simp] theorem State.replyFault_windows (src : Source) (kind : RequestKind) (a : Addr) (code : FaultCode) : (s.replyFault src kind a code).windows = s.windows := rfl
@[simp] theorem State.replyFault_region (src : Source) (kind : RequestKind) (a : Addr) (code : FaultCode) : (s.replyFault src kind a code).region = s.region := rfl
@[simp] theorem State.replyFault_slots (src : Source) (kind : RequestKind) (a : Addr) (code : FaultCode) : (s.replyFault src kind a code).slots = s.slots := rfl
@[simp] theorem State.replyFault_pool (src : Source) (kind : RequestKind) (a : Addr) (code : FaultCode) : (s.replyFault src kind a code).pool = s.pool := rfl
@[simp] theorem State.replyFault_sources (src : Source) (kind : RequestKind) (a : Addr) (code : FaultCode) : (s.replyFault src kind a code).sources = s.sources := rfl
@[simp] theorem State.replyFault_time (src : Source) (kind : RequestKind) (a : Addr) (code : FaultCode) : (s.replyFault src kind a code).time = s.time := rfl
@[simp] theorem State.replyFault_posted (src : Source) (kind : RequestKind) (a : Addr) (code : FaultCode) : (s.replyFault src kind a code).posted = s.posted := rfl
@[simp] theorem State.replyFault_journal (src : Source) (kind : RequestKind) (a : Addr) (code : FaultCode) : (s.replyFault src kind a code).journal = s.journal := rfl
@[simp] theorem State.replyFault_apply (src : Source) (kind : RequestKind) (a : Addr) (code : FaultCode) : (s.replyFault src kind a code).apply = s.apply := rfl
@[simp] theorem State.replyFault_mp (src : Source) (kind : RequestKind) (a : Addr) (code : FaultCode) : (s.replyFault src kind a code).mp = s.mp := rfl
@[simp] theorem State.replyFault_scanner (src : Source) (kind : RequestKind) (a : Addr) (code : FaultCode) : (s.replyFault src kind a code).scanner = s.scanner := rfl
@[simp] theorem State.replyFault_cl (src : Source) (kind : RequestKind) (a : Addr) (code : FaultCode) : (s.replyFault src kind a code).cl = s.cl := rfl
@[simp] theorem State.replyFault_mem (src : Source) (kind : RequestKind) (a : Addr) (code : FaultCode) : (s.replyFault src kind a code).mem = s.mem := rfl
@[simp] theorem State.replyFault_eeprom (src : Source) (kind : RequestKind) (a : Addr) (code : FaultCode) : (s.replyFault src kind a code).eeprom = s.eeprom := rfl
@[simp] theorem State.replyFault_freeCount (src : Source) (kind : RequestKind) (a : Addr) (code : FaultCode) : (s.replyFault src kind a code).freeCount = s.freeCount := rfl

@[simp] theorem State.recordEnd_pending (k : SlotId) (src : Source) (o : EndOutcome) : (s.recordEnd k src o).pending = s.pending := rfl
@[simp] theorem State.recordEnd_bus (k : SlotId) (src : Source) (o : EndOutcome) : (s.recordEnd k src o).bus = s.bus := rfl
@[simp] theorem State.recordEnd_lines (k : SlotId) (src : Source) (o : EndOutcome) : (s.recordEnd k src o).lines = s.lines := rfl
@[simp] theorem State.recordEnd_power (k : SlotId) (src : Source) (o : EndOutcome) : (s.recordEnd k src o).power = s.power := rfl
@[simp] theorem State.recordEnd_op (k : SlotId) (src : Source) (o : EndOutcome) : (s.recordEnd k src o).op = s.op := rfl
@[simp] theorem State.recordEnd_guardsCleared (k : SlotId) (src : Source) (o : EndOutcome) : (s.recordEnd k src o).guardsCleared = s.guardsCleared := rfl
@[simp] theorem State.recordEnd_held (k : SlotId) (src : Source) (o : EndOutcome) : (s.recordEnd k src o).held = s.held := rfl
@[simp] theorem State.recordEnd_windows (k : SlotId) (src : Source) (o : EndOutcome) : (s.recordEnd k src o).windows = s.windows := rfl
@[simp] theorem State.recordEnd_region (k : SlotId) (src : Source) (o : EndOutcome) : (s.recordEnd k src o).region = s.region := rfl
@[simp] theorem State.recordEnd_slots (k : SlotId) (src : Source) (o : EndOutcome) : (s.recordEnd k src o).slots = s.slots := rfl
@[simp] theorem State.recordEnd_pool (k : SlotId) (src : Source) (o : EndOutcome) : (s.recordEnd k src o).pool = s.pool := rfl
@[simp] theorem State.recordEnd_sources (k : SlotId) (src : Source) (o : EndOutcome) : (s.recordEnd k src o).sources = s.sources := rfl
@[simp] theorem State.recordEnd_time (k : SlotId) (src : Source) (o : EndOutcome) : (s.recordEnd k src o).time = s.time := rfl
@[simp] theorem State.recordEnd_posted (k : SlotId) (src : Source) (o : EndOutcome) : (s.recordEnd k src o).posted = s.posted := rfl
@[simp] theorem State.recordEnd_journal (k : SlotId) (src : Source) (o : EndOutcome) : (s.recordEnd k src o).journal = s.journal := rfl
@[simp] theorem State.recordEnd_apply (k : SlotId) (src : Source) (o : EndOutcome) : (s.recordEnd k src o).apply = s.apply := rfl
@[simp] theorem State.recordEnd_mp (k : SlotId) (src : Source) (o : EndOutcome) : (s.recordEnd k src o).mp = s.mp := rfl
@[simp] theorem State.recordEnd_scanner (k : SlotId) (src : Source) (o : EndOutcome) : (s.recordEnd k src o).scanner = s.scanner := rfl
@[simp] theorem State.recordEnd_cl (k : SlotId) (src : Source) (o : EndOutcome) : (s.recordEnd k src o).cl = s.cl := rfl
@[simp] theorem State.recordEnd_mem (k : SlotId) (src : Source) (o : EndOutcome) : (s.recordEnd k src o).mem = s.mem := rfl
@[simp] theorem State.recordEnd_eeprom (k : SlotId) (src : Source) (o : EndOutcome) : (s.recordEnd k src o).eeprom = s.eeprom := rfl
@[simp] theorem State.recordEnd_freeCount (k : SlotId) (src : Source) (o : EndOutcome) : (s.recordEnd k src o).freeCount = s.freeCount := rfl

@[simp] theorem State.setFlag_pending (f : Flag) : (s.setFlag f).pending = s.pending := rfl
@[simp] theorem State.setFlag_bus (f : Flag) : (s.setFlag f).bus = s.bus := rfl
@[simp] theorem State.setFlag_lines (f : Flag) : (s.setFlag f).lines = s.lines := rfl
@[simp] theorem State.setFlag_power (f : Flag) : (s.setFlag f).power = s.power := rfl
@[simp] theorem State.setFlag_op (f : Flag) : (s.setFlag f).op = s.op := rfl
@[simp] theorem State.setFlag_guardsCleared (f : Flag) : (s.setFlag f).guardsCleared = s.guardsCleared := rfl
@[simp] theorem State.setFlag_held (f : Flag) : (s.setFlag f).held = s.held := rfl
@[simp] theorem State.setFlag_windows (f : Flag) : (s.setFlag f).windows = s.windows := rfl
@[simp] theorem State.setFlag_region (f : Flag) : (s.setFlag f).region = s.region := rfl
@[simp] theorem State.setFlag_slots (f : Flag) : (s.setFlag f).slots = s.slots := rfl
@[simp] theorem State.setFlag_pool (f : Flag) : (s.setFlag f).pool = s.pool := rfl
@[simp] theorem State.setFlag_sources (f : Flag) : (s.setFlag f).sources = s.sources := rfl
@[simp] theorem State.setFlag_time (f : Flag) : (s.setFlag f).time = s.time := rfl
@[simp] theorem State.setFlag_posted (f : Flag) : (s.setFlag f).posted = s.posted := rfl
@[simp] theorem State.setFlag_journal (f : Flag) : (s.setFlag f).journal = s.journal := rfl
@[simp] theorem State.setFlag_apply (f : Flag) : (s.setFlag f).apply = s.apply := rfl
@[simp] theorem State.setFlag_mp (f : Flag) : (s.setFlag f).mp = s.mp := rfl
@[simp] theorem State.setFlag_scanner (f : Flag) : (s.setFlag f).scanner = s.scanner := rfl
@[simp] theorem State.setFlag_cl (f : Flag) : (s.setFlag f).cl = s.cl := rfl
@[simp] theorem State.setFlag_mem (f : Flag) : (s.setFlag f).mem = s.mem := rfl
@[simp] theorem State.setFlag_eeprom (f : Flag) : (s.setFlag f).eeprom = s.eeprom := rfl
@[simp] theorem State.setFlag_freeCount (f : Flag) : (s.setFlag f).freeCount = s.freeCount := rfl

@[simp] theorem State.clearFlagBits_pending (m : BitVec 16) : (s.clearFlagBits m).pending = s.pending := rfl
@[simp] theorem State.clearFlagBits_bus (m : BitVec 16) : (s.clearFlagBits m).bus = s.bus := rfl
@[simp] theorem State.clearFlagBits_lines (m : BitVec 16) : (s.clearFlagBits m).lines = s.lines := rfl
@[simp] theorem State.clearFlagBits_power (m : BitVec 16) : (s.clearFlagBits m).power = s.power := rfl
@[simp] theorem State.clearFlagBits_op (m : BitVec 16) : (s.clearFlagBits m).op = s.op := rfl
@[simp] theorem State.clearFlagBits_guardsCleared (m : BitVec 16) : (s.clearFlagBits m).guardsCleared = s.guardsCleared := rfl
@[simp] theorem State.clearFlagBits_held (m : BitVec 16) : (s.clearFlagBits m).held = s.held := rfl
@[simp] theorem State.clearFlagBits_windows (m : BitVec 16) : (s.clearFlagBits m).windows = s.windows := rfl
@[simp] theorem State.clearFlagBits_region (m : BitVec 16) : (s.clearFlagBits m).region = s.region := rfl
@[simp] theorem State.clearFlagBits_slots (m : BitVec 16) : (s.clearFlagBits m).slots = s.slots := rfl
@[simp] theorem State.clearFlagBits_pool (m : BitVec 16) : (s.clearFlagBits m).pool = s.pool := rfl
@[simp] theorem State.clearFlagBits_sources (m : BitVec 16) : (s.clearFlagBits m).sources = s.sources := rfl
@[simp] theorem State.clearFlagBits_time (m : BitVec 16) : (s.clearFlagBits m).time = s.time := rfl
@[simp] theorem State.clearFlagBits_posted (m : BitVec 16) : (s.clearFlagBits m).posted = s.posted := rfl
@[simp] theorem State.clearFlagBits_journal (m : BitVec 16) : (s.clearFlagBits m).journal = s.journal := rfl
@[simp] theorem State.clearFlagBits_apply (m : BitVec 16) : (s.clearFlagBits m).apply = s.apply := rfl
@[simp] theorem State.clearFlagBits_mp (m : BitVec 16) : (s.clearFlagBits m).mp = s.mp := rfl
@[simp] theorem State.clearFlagBits_scanner (m : BitVec 16) : (s.clearFlagBits m).scanner = s.scanner := rfl
@[simp] theorem State.clearFlagBits_cl (m : BitVec 16) : (s.clearFlagBits m).cl = s.cl := rfl
@[simp] theorem State.clearFlagBits_mem (m : BitVec 16) : (s.clearFlagBits m).mem = s.mem := rfl
@[simp] theorem State.clearFlagBits_eeprom (m : BitVec 16) : (s.clearFlagBits m).eeprom = s.eeprom := rfl
@[simp] theorem State.clearFlagBits_freeCount (m : BitVec 16) : (s.clearFlagBits m).freeCount = s.freeCount := rfl

@[simp] theorem State.count_pending (c : Counter) : (s.count c).pending = s.pending := rfl
@[simp] theorem State.count_bus (c : Counter) : (s.count c).bus = s.bus := rfl
@[simp] theorem State.count_lines (c : Counter) : (s.count c).lines = s.lines := rfl
@[simp] theorem State.count_power (c : Counter) : (s.count c).power = s.power := rfl
@[simp] theorem State.count_op (c : Counter) : (s.count c).op = s.op := rfl
@[simp] theorem State.count_guardsCleared (c : Counter) : (s.count c).guardsCleared = s.guardsCleared := rfl
@[simp] theorem State.count_held (c : Counter) : (s.count c).held = s.held := rfl
@[simp] theorem State.count_windows (c : Counter) : (s.count c).windows = s.windows := rfl
@[simp] theorem State.count_region (c : Counter) : (s.count c).region = s.region := rfl
@[simp] theorem State.count_slots (c : Counter) : (s.count c).slots = s.slots := rfl
@[simp] theorem State.count_pool (c : Counter) : (s.count c).pool = s.pool := rfl
@[simp] theorem State.count_sources (c : Counter) : (s.count c).sources = s.sources := rfl
@[simp] theorem State.count_time (c : Counter) : (s.count c).time = s.time := rfl
@[simp] theorem State.count_posted (c : Counter) : (s.count c).posted = s.posted := rfl
@[simp] theorem State.count_journal (c : Counter) : (s.count c).journal = s.journal := rfl
@[simp] theorem State.count_apply (c : Counter) : (s.count c).apply = s.apply := rfl
@[simp] theorem State.count_mp (c : Counter) : (s.count c).mp = s.mp := rfl
@[simp] theorem State.count_scanner (c : Counter) : (s.count c).scanner = s.scanner := rfl
@[simp] theorem State.count_cl (c : Counter) : (s.count c).cl = s.cl := rfl
@[simp] theorem State.count_mem (c : Counter) : (s.count c).mem = s.mem := rfl
@[simp] theorem State.count_eeprom (c : Counter) : (s.count c).eeprom = s.eeprom := rfl
@[simp] theorem State.count_freeCount (c : Counter) : (s.count c).freeCount = s.freeCount := rfl

@[simp] theorem State.noteGuardRefusal_pending : (s.noteGuardRefusal).pending = s.pending := rfl
@[simp] theorem State.noteGuardRefusal_bus : (s.noteGuardRefusal).bus = s.bus := rfl
@[simp] theorem State.noteGuardRefusal_lines : (s.noteGuardRefusal).lines = s.lines := rfl
@[simp] theorem State.noteGuardRefusal_power : (s.noteGuardRefusal).power = s.power := rfl
@[simp] theorem State.noteGuardRefusal_op : (s.noteGuardRefusal).op = s.op := rfl
@[simp] theorem State.noteGuardRefusal_guardsCleared : (s.noteGuardRefusal).guardsCleared = s.guardsCleared := rfl
@[simp] theorem State.noteGuardRefusal_held : (s.noteGuardRefusal).held = s.held := rfl
@[simp] theorem State.noteGuardRefusal_windows : (s.noteGuardRefusal).windows = s.windows := rfl
@[simp] theorem State.noteGuardRefusal_region : (s.noteGuardRefusal).region = s.region := rfl
@[simp] theorem State.noteGuardRefusal_slots : (s.noteGuardRefusal).slots = s.slots := rfl
@[simp] theorem State.noteGuardRefusal_pool : (s.noteGuardRefusal).pool = s.pool := rfl
@[simp] theorem State.noteGuardRefusal_sources : (s.noteGuardRefusal).sources = s.sources := rfl
@[simp] theorem State.noteGuardRefusal_time : (s.noteGuardRefusal).time = s.time := rfl
@[simp] theorem State.noteGuardRefusal_posted : (s.noteGuardRefusal).posted = s.posted := rfl
@[simp] theorem State.noteGuardRefusal_journal : (s.noteGuardRefusal).journal = s.journal := rfl
@[simp] theorem State.noteGuardRefusal_apply : (s.noteGuardRefusal).apply = s.apply := rfl
@[simp] theorem State.noteGuardRefusal_mp : (s.noteGuardRefusal).mp = s.mp := rfl
@[simp] theorem State.noteGuardRefusal_scanner : (s.noteGuardRefusal).scanner = s.scanner := rfl
@[simp] theorem State.noteGuardRefusal_cl : (s.noteGuardRefusal).cl = s.cl := rfl
@[simp] theorem State.noteGuardRefusal_mem : (s.noteGuardRefusal).mem = s.mem := rfl
@[simp] theorem State.noteGuardRefusal_eeprom : (s.noteGuardRefusal).eeprom = s.eeprom := rfl
@[simp] theorem State.noteGuardRefusal_freeCount : (s.noteGuardRefusal).freeCount = s.freeCount := rfl

@[simp] theorem State.noteParity_pending : (s.noteParity).pending = s.pending := rfl
@[simp] theorem State.noteParity_bus : (s.noteParity).bus = s.bus := rfl
@[simp] theorem State.noteParity_lines : (s.noteParity).lines = s.lines := rfl
@[simp] theorem State.noteParity_power : (s.noteParity).power = s.power := rfl
@[simp] theorem State.noteParity_op : (s.noteParity).op = s.op := rfl
@[simp] theorem State.noteParity_guardsCleared : (s.noteParity).guardsCleared = s.guardsCleared := rfl
@[simp] theorem State.noteParity_held : (s.noteParity).held = s.held := rfl
@[simp] theorem State.noteParity_windows : (s.noteParity).windows = s.windows := rfl
@[simp] theorem State.noteParity_region : (s.noteParity).region = s.region := rfl
@[simp] theorem State.noteParity_slots : (s.noteParity).slots = s.slots := rfl
@[simp] theorem State.noteParity_pool : (s.noteParity).pool = s.pool := rfl
@[simp] theorem State.noteParity_sources : (s.noteParity).sources = s.sources := rfl
@[simp] theorem State.noteParity_time : (s.noteParity).time = s.time := rfl
@[simp] theorem State.noteParity_posted : (s.noteParity).posted = s.posted := rfl
@[simp] theorem State.noteParity_journal : (s.noteParity).journal = s.journal := rfl
@[simp] theorem State.noteParity_apply : (s.noteParity).apply = s.apply := rfl
@[simp] theorem State.noteParity_mp : (s.noteParity).mp = s.mp := rfl
@[simp] theorem State.noteParity_scanner : (s.noteParity).scanner = s.scanner := rfl
@[simp] theorem State.noteParity_cl : (s.noteParity).cl = s.cl := rfl
@[simp] theorem State.noteParity_mem : (s.noteParity).mem = s.mem := rfl
@[simp] theorem State.noteParity_eeprom : (s.noteParity).eeprom = s.eeprom := rfl
@[simp] theorem State.noteParity_freeCount : (s.noteParity).freeCount = s.freeCount := rfl

@[simp] theorem State.itemTaken_pending (i : Item) (r : ItemResult) : (s.itemTaken i r).pending = s.pending := rfl
@[simp] theorem State.itemTaken_bus (i : Item) (r : ItemResult) : (s.itemTaken i r).bus = s.bus := rfl
@[simp] theorem State.itemTaken_lines (i : Item) (r : ItemResult) : (s.itemTaken i r).lines = s.lines := rfl
@[simp] theorem State.itemTaken_power (i : Item) (r : ItemResult) : (s.itemTaken i r).power = s.power := rfl
@[simp] theorem State.itemTaken_op (i : Item) (r : ItemResult) : (s.itemTaken i r).op = s.op := rfl
@[simp] theorem State.itemTaken_guardsCleared (i : Item) (r : ItemResult) : (s.itemTaken i r).guardsCleared = s.guardsCleared := rfl
@[simp] theorem State.itemTaken_held (i : Item) (r : ItemResult) : (s.itemTaken i r).held = s.held := rfl
@[simp] theorem State.itemTaken_windows (i : Item) (r : ItemResult) : (s.itemTaken i r).windows = s.windows := rfl
@[simp] theorem State.itemTaken_region (i : Item) (r : ItemResult) : (s.itemTaken i r).region = s.region := rfl
@[simp] theorem State.itemTaken_slots (i : Item) (r : ItemResult) : (s.itemTaken i r).slots = s.slots := rfl
@[simp] theorem State.itemTaken_pool (i : Item) (r : ItemResult) : (s.itemTaken i r).pool = s.pool := rfl
@[simp] theorem State.itemTaken_sources (i : Item) (r : ItemResult) : (s.itemTaken i r).sources = s.sources := rfl
@[simp] theorem State.itemTaken_time (i : Item) (r : ItemResult) : (s.itemTaken i r).time = s.time := rfl
@[simp] theorem State.itemTaken_posted (i : Item) (r : ItemResult) : (s.itemTaken i r).posted = s.posted := rfl
@[simp] theorem State.itemTaken_journal (i : Item) (r : ItemResult) : (s.itemTaken i r).journal = s.journal := rfl
@[simp] theorem State.itemTaken_apply (i : Item) (r : ItemResult) : (s.itemTaken i r).apply = s.apply := rfl
@[simp] theorem State.itemTaken_mp (i : Item) (r : ItemResult) : (s.itemTaken i r).mp = s.mp := rfl
@[simp] theorem State.itemTaken_scanner (i : Item) (r : ItemResult) : (s.itemTaken i r).scanner = s.scanner := rfl
@[simp] theorem State.itemTaken_cl (i : Item) (r : ItemResult) : (s.itemTaken i r).cl = s.cl := rfl
@[simp] theorem State.itemTaken_mem (i : Item) (r : ItemResult) : (s.itemTaken i r).mem = s.mem := rfl
@[simp] theorem State.itemTaken_eeprom (i : Item) (r : ItemResult) : (s.itemTaken i r).eeprom = s.eeprom := rfl
@[simp] theorem State.itemTaken_freeCount (i : Item) (r : ItemResult) : (s.itemTaken i r).freeCount = s.freeCount := rfl

@[simp] theorem State.setResult_pending (r : ItemResult) : (s.setResult r).pending = s.pending := rfl
@[simp] theorem State.setResult_bus (r : ItemResult) : (s.setResult r).bus = s.bus := rfl
@[simp] theorem State.setResult_lines (r : ItemResult) : (s.setResult r).lines = s.lines := rfl
@[simp] theorem State.setResult_power (r : ItemResult) : (s.setResult r).power = s.power := rfl
@[simp] theorem State.setResult_op (r : ItemResult) : (s.setResult r).op = s.op := rfl
@[simp] theorem State.setResult_guardsCleared (r : ItemResult) : (s.setResult r).guardsCleared = s.guardsCleared := rfl
@[simp] theorem State.setResult_held (r : ItemResult) : (s.setResult r).held = s.held := rfl
@[simp] theorem State.setResult_windows (r : ItemResult) : (s.setResult r).windows = s.windows := rfl
@[simp] theorem State.setResult_region (r : ItemResult) : (s.setResult r).region = s.region := rfl
@[simp] theorem State.setResult_slots (r : ItemResult) : (s.setResult r).slots = s.slots := rfl
@[simp] theorem State.setResult_pool (r : ItemResult) : (s.setResult r).pool = s.pool := rfl
@[simp] theorem State.setResult_sources (r : ItemResult) : (s.setResult r).sources = s.sources := rfl
@[simp] theorem State.setResult_time (r : ItemResult) : (s.setResult r).time = s.time := rfl
@[simp] theorem State.setResult_posted (r : ItemResult) : (s.setResult r).posted = s.posted := rfl
@[simp] theorem State.setResult_journal (r : ItemResult) : (s.setResult r).journal = s.journal := rfl
@[simp] theorem State.setResult_apply (r : ItemResult) : (s.setResult r).apply = s.apply := rfl
@[simp] theorem State.setResult_mp (r : ItemResult) : (s.setResult r).mp = s.mp := rfl
@[simp] theorem State.setResult_scanner (r : ItemResult) : (s.setResult r).scanner = s.scanner := rfl
@[simp] theorem State.setResult_cl (r : ItemResult) : (s.setResult r).cl = s.cl := rfl
@[simp] theorem State.setResult_mem (r : ItemResult) : (s.setResult r).mem = s.mem := rfl
@[simp] theorem State.setResult_eeprom (r : ItemResult) : (s.setResult r).eeprom = s.eeprom := rfl
@[simp] theorem State.setResult_freeCount (r : ItemResult) : (s.setResult r).freeCount = s.freeCount := rfl

@[simp] theorem State.sampleGuard_pending (b : Bool) : (s.sampleGuard b).pending = s.pending := rfl
@[simp] theorem State.sampleGuard_bus (b : Bool) : (s.sampleGuard b).bus = s.bus := rfl
@[simp] theorem State.sampleGuard_power (b : Bool) : (s.sampleGuard b).power = s.power := rfl
@[simp] theorem State.sampleGuard_op (b : Bool) : (s.sampleGuard b).op = s.op := rfl
@[simp] theorem State.sampleGuard_guardsCleared (b : Bool) : (s.sampleGuard b).guardsCleared = s.guardsCleared := rfl
@[simp] theorem State.sampleGuard_held (b : Bool) : (s.sampleGuard b).held = s.held := rfl
@[simp] theorem State.sampleGuard_windows (b : Bool) : (s.sampleGuard b).windows = s.windows := rfl
@[simp] theorem State.sampleGuard_region (b : Bool) : (s.sampleGuard b).region = s.region := rfl
@[simp] theorem State.sampleGuard_slots (b : Bool) : (s.sampleGuard b).slots = s.slots := rfl
@[simp] theorem State.sampleGuard_pool (b : Bool) : (s.sampleGuard b).pool = s.pool := rfl
@[simp] theorem State.sampleGuard_sources (b : Bool) : (s.sampleGuard b).sources = s.sources := rfl
@[simp] theorem State.sampleGuard_time (b : Bool) : (s.sampleGuard b).time = s.time := rfl
@[simp] theorem State.sampleGuard_posted (b : Bool) : (s.sampleGuard b).posted = s.posted := rfl
@[simp] theorem State.sampleGuard_journal (b : Bool) : (s.sampleGuard b).journal = s.journal := rfl
@[simp] theorem State.sampleGuard_apply (b : Bool) : (s.sampleGuard b).apply = s.apply := rfl
@[simp] theorem State.sampleGuard_mp (b : Bool) : (s.sampleGuard b).mp = s.mp := rfl
@[simp] theorem State.sampleGuard_scanner (b : Bool) : (s.sampleGuard b).scanner = s.scanner := rfl
@[simp] theorem State.sampleGuard_cl (b : Bool) : (s.sampleGuard b).cl = s.cl := rfl
@[simp] theorem State.sampleGuard_ml (b : Bool) : (s.sampleGuard b).ml = s.ml := rfl
@[simp] theorem State.sampleGuard_mem (b : Bool) : (s.sampleGuard b).mem = s.mem := rfl
@[simp] theorem State.sampleGuard_eeprom (b : Bool) : (s.sampleGuard b).eeprom = s.eeprom := rfl
@[simp] theorem State.sampleGuard_freeCount (b : Bool) : (s.sampleGuard b).freeCount = s.freeCount := rfl

@[simp] theorem State.setPfail_pending (b : Bool) : (s.setPfail b).pending = s.pending := rfl
@[simp] theorem State.setPfail_bus (b : Bool) : (s.setPfail b).bus = s.bus := rfl
@[simp] theorem State.setPfail_power (b : Bool) : (s.setPfail b).power = s.power := rfl
@[simp] theorem State.setPfail_op (b : Bool) : (s.setPfail b).op = s.op := rfl
@[simp] theorem State.setPfail_guardsCleared (b : Bool) : (s.setPfail b).guardsCleared = s.guardsCleared := rfl
@[simp] theorem State.setPfail_held (b : Bool) : (s.setPfail b).held = s.held := rfl
@[simp] theorem State.setPfail_windows (b : Bool) : (s.setPfail b).windows = s.windows := rfl
@[simp] theorem State.setPfail_region (b : Bool) : (s.setPfail b).region = s.region := rfl
@[simp] theorem State.setPfail_slots (b : Bool) : (s.setPfail b).slots = s.slots := rfl
@[simp] theorem State.setPfail_pool (b : Bool) : (s.setPfail b).pool = s.pool := rfl
@[simp] theorem State.setPfail_sources (b : Bool) : (s.setPfail b).sources = s.sources := rfl
@[simp] theorem State.setPfail_time (b : Bool) : (s.setPfail b).time = s.time := rfl
@[simp] theorem State.setPfail_posted (b : Bool) : (s.setPfail b).posted = s.posted := rfl
@[simp] theorem State.setPfail_journal (b : Bool) : (s.setPfail b).journal = s.journal := rfl
@[simp] theorem State.setPfail_apply (b : Bool) : (s.setPfail b).apply = s.apply := rfl
@[simp] theorem State.setPfail_mp (b : Bool) : (s.setPfail b).mp = s.mp := rfl
@[simp] theorem State.setPfail_scanner (b : Bool) : (s.setPfail b).scanner = s.scanner := rfl
@[simp] theorem State.setPfail_cl (b : Bool) : (s.setPfail b).cl = s.cl := rfl
@[simp] theorem State.setPfail_ml (b : Bool) : (s.setPfail b).ml = s.ml := rfl
@[simp] theorem State.setPfail_mem (b : Bool) : (s.setPfail b).mem = s.mem := rfl
@[simp] theorem State.setPfail_eeprom (b : Bool) : (s.setPfail b).eeprom = s.eeprom := rfl
@[simp] theorem State.setPfail_freeCount (b : Bool) : (s.setPfail b).freeCount = s.freeCount := rfl

@[simp] theorem State.setLrst_pending (b : Bool) : (s.setLrst b).pending = s.pending := rfl
@[simp] theorem State.setLrst_bus (b : Bool) : (s.setLrst b).bus = s.bus := rfl
@[simp] theorem State.setLrst_power (b : Bool) : (s.setLrst b).power = s.power := rfl
@[simp] theorem State.setLrst_op (b : Bool) : (s.setLrst b).op = s.op := rfl
@[simp] theorem State.setLrst_guardsCleared (b : Bool) : (s.setLrst b).guardsCleared = s.guardsCleared := rfl
@[simp] theorem State.setLrst_held (b : Bool) : (s.setLrst b).held = s.held := rfl
@[simp] theorem State.setLrst_windows (b : Bool) : (s.setLrst b).windows = s.windows := rfl
@[simp] theorem State.setLrst_region (b : Bool) : (s.setLrst b).region = s.region := rfl
@[simp] theorem State.setLrst_slots (b : Bool) : (s.setLrst b).slots = s.slots := rfl
@[simp] theorem State.setLrst_pool (b : Bool) : (s.setLrst b).pool = s.pool := rfl
@[simp] theorem State.setLrst_sources (b : Bool) : (s.setLrst b).sources = s.sources := rfl
@[simp] theorem State.setLrst_time (b : Bool) : (s.setLrst b).time = s.time := rfl
@[simp] theorem State.setLrst_posted (b : Bool) : (s.setLrst b).posted = s.posted := rfl
@[simp] theorem State.setLrst_journal (b : Bool) : (s.setLrst b).journal = s.journal := rfl
@[simp] theorem State.setLrst_apply (b : Bool) : (s.setLrst b).apply = s.apply := rfl
@[simp] theorem State.setLrst_mp (b : Bool) : (s.setLrst b).mp = s.mp := rfl
@[simp] theorem State.setLrst_scanner (b : Bool) : (s.setLrst b).scanner = s.scanner := rfl
@[simp] theorem State.setLrst_cl (b : Bool) : (s.setLrst b).cl = s.cl := rfl
@[simp] theorem State.setLrst_ml (b : Bool) : (s.setLrst b).ml = s.ml := rfl
@[simp] theorem State.setLrst_mem (b : Bool) : (s.setLrst b).mem = s.mem := rfl
@[simp] theorem State.setLrst_eeprom (b : Bool) : (s.setLrst b).eeprom = s.eeprom := rfl
@[simp] theorem State.setLrst_freeCount (b : Bool) : (s.setLrst b).freeCount = s.freeCount := rfl

@[simp] theorem State.clearRuntimeGuards_pending : (s.clearRuntimeGuards).pending = s.pending := rfl
@[simp] theorem State.clearRuntimeGuards_bus : (s.clearRuntimeGuards).bus = s.bus := rfl
@[simp] theorem State.clearRuntimeGuards_lines : (s.clearRuntimeGuards).lines = s.lines := rfl
@[simp] theorem State.clearRuntimeGuards_power : (s.clearRuntimeGuards).power = s.power := rfl
@[simp] theorem State.clearRuntimeGuards_op : (s.clearRuntimeGuards).op = s.op := rfl
@[simp] theorem State.clearRuntimeGuards_guardsCleared : (s.clearRuntimeGuards).guardsCleared = s.guardsCleared := rfl
@[simp] theorem State.clearRuntimeGuards_held : (s.clearRuntimeGuards).held = s.held := rfl
@[simp] theorem State.clearRuntimeGuards_region : (s.clearRuntimeGuards).region = s.region := rfl
@[simp] theorem State.clearRuntimeGuards_slots : (s.clearRuntimeGuards).slots = s.slots := rfl
@[simp] theorem State.clearRuntimeGuards_pool : (s.clearRuntimeGuards).pool = s.pool := rfl
@[simp] theorem State.clearRuntimeGuards_sources : (s.clearRuntimeGuards).sources = s.sources := rfl
@[simp] theorem State.clearRuntimeGuards_time : (s.clearRuntimeGuards).time = s.time := rfl
@[simp] theorem State.clearRuntimeGuards_posted : (s.clearRuntimeGuards).posted = s.posted := rfl
@[simp] theorem State.clearRuntimeGuards_journal : (s.clearRuntimeGuards).journal = s.journal := rfl
@[simp] theorem State.clearRuntimeGuards_apply : (s.clearRuntimeGuards).apply = s.apply := rfl
@[simp] theorem State.clearRuntimeGuards_mp : (s.clearRuntimeGuards).mp = s.mp := rfl
@[simp] theorem State.clearRuntimeGuards_scanner : (s.clearRuntimeGuards).scanner = s.scanner := rfl
@[simp] theorem State.clearRuntimeGuards_cl : (s.clearRuntimeGuards).cl = s.cl := rfl
@[simp] theorem State.clearRuntimeGuards_ml : (s.clearRuntimeGuards).ml = s.ml := rfl
@[simp] theorem State.clearRuntimeGuards_mem : (s.clearRuntimeGuards).mem = s.mem := rfl
@[simp] theorem State.clearRuntimeGuards_eeprom : (s.clearRuntimeGuards).eeprom = s.eeprom := rfl
@[simp] theorem State.clearRuntimeGuards_freeCount : (s.clearRuntimeGuards).freeCount = s.freeCount := rfl

@[simp] theorem State.setSlot_pending (k : SlotId) (x : Slot) : (s.setSlot k x).pending = s.pending := rfl
@[simp] theorem State.setSlot_bus (k : SlotId) (x : Slot) : (s.setSlot k x).bus = s.bus := rfl
@[simp] theorem State.setSlot_lines (k : SlotId) (x : Slot) : (s.setSlot k x).lines = s.lines := rfl
@[simp] theorem State.setSlot_power (k : SlotId) (x : Slot) : (s.setSlot k x).power = s.power := rfl
@[simp] theorem State.setSlot_op (k : SlotId) (x : Slot) : (s.setSlot k x).op = s.op := rfl
@[simp] theorem State.setSlot_guardsCleared (k : SlotId) (x : Slot) : (s.setSlot k x).guardsCleared = s.guardsCleared := rfl
@[simp] theorem State.setSlot_held (k : SlotId) (x : Slot) : (s.setSlot k x).held = s.held := rfl
@[simp] theorem State.setSlot_windows (k : SlotId) (x : Slot) : (s.setSlot k x).windows = s.windows := rfl
@[simp] theorem State.setSlot_region (k : SlotId) (x : Slot) : (s.setSlot k x).region = s.region := rfl
@[simp] theorem State.setSlot_pool (k : SlotId) (x : Slot) : (s.setSlot k x).pool = s.pool := rfl
@[simp] theorem State.setSlot_sources (k : SlotId) (x : Slot) : (s.setSlot k x).sources = s.sources := rfl
@[simp] theorem State.setSlot_time (k : SlotId) (x : Slot) : (s.setSlot k x).time = s.time := rfl
@[simp] theorem State.setSlot_posted (k : SlotId) (x : Slot) : (s.setSlot k x).posted = s.posted := rfl
@[simp] theorem State.setSlot_journal (k : SlotId) (x : Slot) : (s.setSlot k x).journal = s.journal := rfl
@[simp] theorem State.setSlot_apply (k : SlotId) (x : Slot) : (s.setSlot k x).apply = s.apply := rfl
@[simp] theorem State.setSlot_mp (k : SlotId) (x : Slot) : (s.setSlot k x).mp = s.mp := rfl
@[simp] theorem State.setSlot_scanner (k : SlotId) (x : Slot) : (s.setSlot k x).scanner = s.scanner := rfl
@[simp] theorem State.setSlot_cl (k : SlotId) (x : Slot) : (s.setSlot k x).cl = s.cl := rfl
@[simp] theorem State.setSlot_ml (k : SlotId) (x : Slot) : (s.setSlot k x).ml = s.ml := rfl
@[simp] theorem State.setSlot_mem (k : SlotId) (x : Slot) : (s.setSlot k x).mem = s.mem := rfl
@[simp] theorem State.setSlot_eeprom (k : SlotId) (x : Slot) : (s.setSlot k x).eeprom = s.eeprom := rfl
@[simp] theorem State.setSlot_freeCount (k : SlotId) (x : Slot) : (s.setSlot k x).freeCount = s.freeCount := rfl

@[simp] theorem State.releaseEntries_pending (k : SlotId) : (s.releaseEntries k).pending = s.pending := by simp only [State.releaseEntries]
@[simp] theorem State.releaseEntries_bus (k : SlotId) : (s.releaseEntries k).bus = s.bus := by simp only [State.releaseEntries]
@[simp] theorem State.releaseEntries_lines (k : SlotId) : (s.releaseEntries k).lines = s.lines := by simp only [State.releaseEntries]
@[simp] theorem State.releaseEntries_power (k : SlotId) : (s.releaseEntries k).power = s.power := by simp only [State.releaseEntries]
@[simp] theorem State.releaseEntries_op (k : SlotId) : (s.releaseEntries k).op = s.op := by simp only [State.releaseEntries]
@[simp] theorem State.releaseEntries_guardsCleared (k : SlotId) : (s.releaseEntries k).guardsCleared = s.guardsCleared := by simp only [State.releaseEntries]
@[simp] theorem State.releaseEntries_held (k : SlotId) : (s.releaseEntries k).held = s.held := by simp only [State.releaseEntries]
@[simp] theorem State.releaseEntries_windows (k : SlotId) : (s.releaseEntries k).windows = s.windows := by simp only [State.releaseEntries]
@[simp] theorem State.releaseEntries_region (k : SlotId) : (s.releaseEntries k).region = s.region := by simp only [State.releaseEntries]
@[simp] theorem State.releaseEntries_slots (k : SlotId) : (s.releaseEntries k).slots = s.slots := by simp only [State.releaseEntries]
@[simp] theorem State.releaseEntries_sources (k : SlotId) : (s.releaseEntries k).sources = s.sources := by simp only [State.releaseEntries]
@[simp] theorem State.releaseEntries_time (k : SlotId) : (s.releaseEntries k).time = s.time := by simp only [State.releaseEntries]
@[simp] theorem State.releaseEntries_posted (k : SlotId) : (s.releaseEntries k).posted = s.posted := by simp only [State.releaseEntries]
@[simp] theorem State.releaseEntries_journal (k : SlotId) : (s.releaseEntries k).journal = s.journal := by simp only [State.releaseEntries]
@[simp] theorem State.releaseEntries_apply (k : SlotId) : (s.releaseEntries k).apply = s.apply := by simp only [State.releaseEntries]
@[simp] theorem State.releaseEntries_mp (k : SlotId) : (s.releaseEntries k).mp = s.mp := by simp only [State.releaseEntries]
@[simp] theorem State.releaseEntries_scanner (k : SlotId) : (s.releaseEntries k).scanner = s.scanner := by simp only [State.releaseEntries]
@[simp] theorem State.releaseEntries_cl (k : SlotId) : (s.releaseEntries k).cl = s.cl := by simp only [State.releaseEntries]
@[simp] theorem State.releaseEntries_ml (k : SlotId) : (s.releaseEntries k).ml = s.ml := by simp only [State.releaseEntries]
@[simp] theorem State.releaseEntries_mem (k : SlotId) : (s.releaseEntries k).mem = s.mem := by simp only [State.releaseEntries]
@[simp] theorem State.releaseEntries_eeprom (k : SlotId) : (s.releaseEntries k).eeprom = s.eeprom := by simp only [State.releaseEntries]
@[simp] theorem State.releaseEntries_freeCount (k : SlotId) : (s.releaseEntries k).freeCount = s.freeCount := by simp only [State.releaseEntries]

@[simp] theorem State.stageMerge_pending (k : SlotId) (w : Addr) (m : Mask) (d : Word) : (s.stageMerge k w m d).pending = s.pending := by simp only [State.stageMerge]
@[simp] theorem State.stageMerge_bus (k : SlotId) (w : Addr) (m : Mask) (d : Word) : (s.stageMerge k w m d).bus = s.bus := by simp only [State.stageMerge]
@[simp] theorem State.stageMerge_lines (k : SlotId) (w : Addr) (m : Mask) (d : Word) : (s.stageMerge k w m d).lines = s.lines := by simp only [State.stageMerge]
@[simp] theorem State.stageMerge_power (k : SlotId) (w : Addr) (m : Mask) (d : Word) : (s.stageMerge k w m d).power = s.power := by simp only [State.stageMerge]
@[simp] theorem State.stageMerge_op (k : SlotId) (w : Addr) (m : Mask) (d : Word) : (s.stageMerge k w m d).op = s.op := by simp only [State.stageMerge]
@[simp] theorem State.stageMerge_guardsCleared (k : SlotId) (w : Addr) (m : Mask) (d : Word) : (s.stageMerge k w m d).guardsCleared = s.guardsCleared := by simp only [State.stageMerge]
@[simp] theorem State.stageMerge_held (k : SlotId) (w : Addr) (m : Mask) (d : Word) : (s.stageMerge k w m d).held = s.held := by simp only [State.stageMerge]
@[simp] theorem State.stageMerge_windows (k : SlotId) (w : Addr) (m : Mask) (d : Word) : (s.stageMerge k w m d).windows = s.windows := by simp only [State.stageMerge]
@[simp] theorem State.stageMerge_region (k : SlotId) (w : Addr) (m : Mask) (d : Word) : (s.stageMerge k w m d).region = s.region := by simp only [State.stageMerge]
@[simp] theorem State.stageMerge_slots (k : SlotId) (w : Addr) (m : Mask) (d : Word) : (s.stageMerge k w m d).slots = s.slots := by simp only [State.stageMerge]
@[simp] theorem State.stageMerge_sources (k : SlotId) (w : Addr) (m : Mask) (d : Word) : (s.stageMerge k w m d).sources = s.sources := by simp only [State.stageMerge]
@[simp] theorem State.stageMerge_time (k : SlotId) (w : Addr) (m : Mask) (d : Word) : (s.stageMerge k w m d).time = s.time := by simp only [State.stageMerge]
@[simp] theorem State.stageMerge_posted (k : SlotId) (w : Addr) (m : Mask) (d : Word) : (s.stageMerge k w m d).posted = s.posted := by simp only [State.stageMerge]
@[simp] theorem State.stageMerge_journal (k : SlotId) (w : Addr) (m : Mask) (d : Word) : (s.stageMerge k w m d).journal = s.journal := by simp only [State.stageMerge]
@[simp] theorem State.stageMerge_apply (k : SlotId) (w : Addr) (m : Mask) (d : Word) : (s.stageMerge k w m d).apply = s.apply := by simp only [State.stageMerge]
@[simp] theorem State.stageMerge_mp (k : SlotId) (w : Addr) (m : Mask) (d : Word) : (s.stageMerge k w m d).mp = s.mp := by simp only [State.stageMerge]
@[simp] theorem State.stageMerge_scanner (k : SlotId) (w : Addr) (m : Mask) (d : Word) : (s.stageMerge k w m d).scanner = s.scanner := by simp only [State.stageMerge]
@[simp] theorem State.stageMerge_cl (k : SlotId) (w : Addr) (m : Mask) (d : Word) : (s.stageMerge k w m d).cl = s.cl := by simp only [State.stageMerge]
@[simp] theorem State.stageMerge_ml (k : SlotId) (w : Addr) (m : Mask) (d : Word) : (s.stageMerge k w m d).ml = s.ml := by simp only [State.stageMerge]
@[simp] theorem State.stageMerge_mem (k : SlotId) (w : Addr) (m : Mask) (d : Word) : (s.stageMerge k w m d).mem = s.mem := by simp only [State.stageMerge]
@[simp] theorem State.stageMerge_eeprom (k : SlotId) (w : Addr) (m : Mask) (d : Word) : (s.stageMerge k w m d).eeprom = s.eeprom := by simp only [State.stageMerge]
@[simp] theorem State.stageMerge_freeCount (k : SlotId) (w : Addr) (m : Mask) (d : Word) : (s.stageMerge k w m d).freeCount = s.freeCount := by simp only [State.stageMerge]

@[simp] theorem State.freeSlot_pending (k : SlotId) : (s.freeSlot k).pending = s.pending := by simp [State.freeSlot]
@[simp] theorem State.freeSlot_bus (k : SlotId) : (s.freeSlot k).bus = s.bus := by simp [State.freeSlot]
@[simp] theorem State.freeSlot_lines (k : SlotId) : (s.freeSlot k).lines = s.lines := by simp [State.freeSlot]
@[simp] theorem State.freeSlot_power (k : SlotId) : (s.freeSlot k).power = s.power := by simp [State.freeSlot]
@[simp] theorem State.freeSlot_op (k : SlotId) : (s.freeSlot k).op = s.op := by simp [State.freeSlot]
@[simp] theorem State.freeSlot_guardsCleared (k : SlotId) : (s.freeSlot k).guardsCleared = s.guardsCleared := by simp [State.freeSlot]
@[simp] theorem State.freeSlot_held (k : SlotId) : (s.freeSlot k).held = s.held := by simp [State.freeSlot]
@[simp] theorem State.freeSlot_windows (k : SlotId) : (s.freeSlot k).windows = s.windows := by simp [State.freeSlot]
@[simp] theorem State.freeSlot_region (k : SlotId) : (s.freeSlot k).region = s.region := by simp [State.freeSlot]
@[simp] theorem State.freeSlot_sources (k : SlotId) : (s.freeSlot k).sources = s.sources := by simp [State.freeSlot]
@[simp] theorem State.freeSlot_time (k : SlotId) : (s.freeSlot k).time = s.time := by simp [State.freeSlot]
@[simp] theorem State.freeSlot_posted (k : SlotId) : (s.freeSlot k).posted = s.posted := by simp [State.freeSlot]
@[simp] theorem State.freeSlot_journal (k : SlotId) : (s.freeSlot k).journal = s.journal := by simp [State.freeSlot]
@[simp] theorem State.freeSlot_apply (k : SlotId) : (s.freeSlot k).apply = s.apply := by simp [State.freeSlot]
@[simp] theorem State.freeSlot_mp (k : SlotId) : (s.freeSlot k).mp = s.mp := by simp [State.freeSlot]
@[simp] theorem State.freeSlot_scanner (k : SlotId) : (s.freeSlot k).scanner = s.scanner := by simp [State.freeSlot]
@[simp] theorem State.freeSlot_cl (k : SlotId) : (s.freeSlot k).cl = s.cl := by simp [State.freeSlot]
@[simp] theorem State.freeSlot_ml (k : SlotId) : (s.freeSlot k).ml = s.ml := by simp [State.freeSlot]
@[simp] theorem State.freeSlot_mem (k : SlotId) : (s.freeSlot k).mem = s.mem := by simp [State.freeSlot]
@[simp] theorem State.freeSlot_eeprom (k : SlotId) : (s.freeSlot k).eeprom = s.eeprom := by simp [State.freeSlot]
@[simp] theorem State.freeSlot_freeCount (k : SlotId) : (s.freeSlot k).freeCount = s.freeCount := by simp [State.freeSlot]

@[simp] theorem State.setSource_pending (i : Source) (e : SourceEntry) : (s.setSource i e).pending = s.pending := rfl
@[simp] theorem State.setSource_bus (i : Source) (e : SourceEntry) : (s.setSource i e).bus = s.bus := rfl
@[simp] theorem State.setSource_lines (i : Source) (e : SourceEntry) : (s.setSource i e).lines = s.lines := rfl
@[simp] theorem State.setSource_power (i : Source) (e : SourceEntry) : (s.setSource i e).power = s.power := rfl
@[simp] theorem State.setSource_op (i : Source) (e : SourceEntry) : (s.setSource i e).op = s.op := rfl
@[simp] theorem State.setSource_guardsCleared (i : Source) (e : SourceEntry) : (s.setSource i e).guardsCleared = s.guardsCleared := rfl
@[simp] theorem State.setSource_held (i : Source) (e : SourceEntry) : (s.setSource i e).held = s.held := rfl
@[simp] theorem State.setSource_windows (i : Source) (e : SourceEntry) : (s.setSource i e).windows = s.windows := rfl
@[simp] theorem State.setSource_region (i : Source) (e : SourceEntry) : (s.setSource i e).region = s.region := rfl
@[simp] theorem State.setSource_slots (i : Source) (e : SourceEntry) : (s.setSource i e).slots = s.slots := rfl
@[simp] theorem State.setSource_pool (i : Source) (e : SourceEntry) : (s.setSource i e).pool = s.pool := rfl
@[simp] theorem State.setSource_time (i : Source) (e : SourceEntry) : (s.setSource i e).time = s.time := rfl
@[simp] theorem State.setSource_posted (i : Source) (e : SourceEntry) : (s.setSource i e).posted = s.posted := rfl
@[simp] theorem State.setSource_journal (i : Source) (e : SourceEntry) : (s.setSource i e).journal = s.journal := rfl
@[simp] theorem State.setSource_apply (i : Source) (e : SourceEntry) : (s.setSource i e).apply = s.apply := rfl
@[simp] theorem State.setSource_mp (i : Source) (e : SourceEntry) : (s.setSource i e).mp = s.mp := rfl
@[simp] theorem State.setSource_scanner (i : Source) (e : SourceEntry) : (s.setSource i e).scanner = s.scanner := rfl
@[simp] theorem State.setSource_cl (i : Source) (e : SourceEntry) : (s.setSource i e).cl = s.cl := rfl
@[simp] theorem State.setSource_ml (i : Source) (e : SourceEntry) : (s.setSource i e).ml = s.ml := rfl
@[simp] theorem State.setSource_mem (i : Source) (e : SourceEntry) : (s.setSource i e).mem = s.mem := rfl
@[simp] theorem State.setSource_eeprom (i : Source) (e : SourceEntry) : (s.setSource i e).eeprom = s.eeprom := rfl
@[simp] theorem State.setSource_freeCount (i : Source) (e : SourceEntry) : (s.setSource i e).freeCount = s.freeCount := rfl

@[simp] theorem State.mapSources_pending (f : Source → SourceEntry → SourceEntry) : (s.mapSources f).pending = s.pending := rfl
@[simp] theorem State.mapSources_bus (f : Source → SourceEntry → SourceEntry) : (s.mapSources f).bus = s.bus := rfl
@[simp] theorem State.mapSources_lines (f : Source → SourceEntry → SourceEntry) : (s.mapSources f).lines = s.lines := rfl
@[simp] theorem State.mapSources_power (f : Source → SourceEntry → SourceEntry) : (s.mapSources f).power = s.power := rfl
@[simp] theorem State.mapSources_op (f : Source → SourceEntry → SourceEntry) : (s.mapSources f).op = s.op := rfl
@[simp] theorem State.mapSources_guardsCleared (f : Source → SourceEntry → SourceEntry) : (s.mapSources f).guardsCleared = s.guardsCleared := rfl
@[simp] theorem State.mapSources_held (f : Source → SourceEntry → SourceEntry) : (s.mapSources f).held = s.held := rfl
@[simp] theorem State.mapSources_windows (f : Source → SourceEntry → SourceEntry) : (s.mapSources f).windows = s.windows := rfl
@[simp] theorem State.mapSources_region (f : Source → SourceEntry → SourceEntry) : (s.mapSources f).region = s.region := rfl
@[simp] theorem State.mapSources_slots (f : Source → SourceEntry → SourceEntry) : (s.mapSources f).slots = s.slots := rfl
@[simp] theorem State.mapSources_pool (f : Source → SourceEntry → SourceEntry) : (s.mapSources f).pool = s.pool := rfl
@[simp] theorem State.mapSources_time (f : Source → SourceEntry → SourceEntry) : (s.mapSources f).time = s.time := rfl
@[simp] theorem State.mapSources_posted (f : Source → SourceEntry → SourceEntry) : (s.mapSources f).posted = s.posted := rfl
@[simp] theorem State.mapSources_journal (f : Source → SourceEntry → SourceEntry) : (s.mapSources f).journal = s.journal := rfl
@[simp] theorem State.mapSources_apply (f : Source → SourceEntry → SourceEntry) : (s.mapSources f).apply = s.apply := rfl
@[simp] theorem State.mapSources_mp (f : Source → SourceEntry → SourceEntry) : (s.mapSources f).mp = s.mp := rfl
@[simp] theorem State.mapSources_scanner (f : Source → SourceEntry → SourceEntry) : (s.mapSources f).scanner = s.scanner := rfl
@[simp] theorem State.mapSources_cl (f : Source → SourceEntry → SourceEntry) : (s.mapSources f).cl = s.cl := rfl
@[simp] theorem State.mapSources_ml (f : Source → SourceEntry → SourceEntry) : (s.mapSources f).ml = s.ml := rfl
@[simp] theorem State.mapSources_mem (f : Source → SourceEntry → SourceEntry) : (s.mapSources f).mem = s.mem := rfl
@[simp] theorem State.mapSources_eeprom (f : Source → SourceEntry → SourceEntry) : (s.mapSources f).eeprom = s.eeprom := rfl
@[simp] theorem State.mapSources_freeCount (f : Source → SourceEntry → SourceEntry) : (s.mapSources f).freeCount = s.freeCount := rfl

@[simp] theorem State.clearHold_pending (i : Source) : (s.clearHold i).pending = s.pending := rfl
@[simp] theorem State.clearHold_bus (i : Source) : (s.clearHold i).bus = s.bus := rfl
@[simp] theorem State.clearHold_lines (i : Source) : (s.clearHold i).lines = s.lines := rfl
@[simp] theorem State.clearHold_power (i : Source) : (s.clearHold i).power = s.power := rfl
@[simp] theorem State.clearHold_op (i : Source) : (s.clearHold i).op = s.op := rfl
@[simp] theorem State.clearHold_guardsCleared (i : Source) : (s.clearHold i).guardsCleared = s.guardsCleared := rfl
@[simp] theorem State.clearHold_held (i : Source) : (s.clearHold i).held = s.held := rfl
@[simp] theorem State.clearHold_windows (i : Source) : (s.clearHold i).windows = s.windows := rfl
@[simp] theorem State.clearHold_region (i : Source) : (s.clearHold i).region = s.region := rfl
@[simp] theorem State.clearHold_slots (i : Source) : (s.clearHold i).slots = s.slots := rfl
@[simp] theorem State.clearHold_pool (i : Source) : (s.clearHold i).pool = s.pool := rfl
@[simp] theorem State.clearHold_time (i : Source) : (s.clearHold i).time = s.time := rfl
@[simp] theorem State.clearHold_posted (i : Source) : (s.clearHold i).posted = s.posted := rfl
@[simp] theorem State.clearHold_journal (i : Source) : (s.clearHold i).journal = s.journal := rfl
@[simp] theorem State.clearHold_apply (i : Source) : (s.clearHold i).apply = s.apply := rfl
@[simp] theorem State.clearHold_mp (i : Source) : (s.clearHold i).mp = s.mp := rfl
@[simp] theorem State.clearHold_scanner (i : Source) : (s.clearHold i).scanner = s.scanner := rfl
@[simp] theorem State.clearHold_cl (i : Source) : (s.clearHold i).cl = s.cl := rfl
@[simp] theorem State.clearHold_ml (i : Source) : (s.clearHold i).ml = s.ml := rfl
@[simp] theorem State.clearHold_mem (i : Source) : (s.clearHold i).mem = s.mem := rfl
@[simp] theorem State.clearHold_eeprom (i : Source) : (s.clearHold i).eeprom = s.eeprom := rfl
@[simp] theorem State.clearHold_freeCount (i : Source) : (s.clearHold i).freeCount = s.freeCount := rfl

@[simp] theorem State.setCompletion_pending (i : Source) (c : Option Completion) : (s.setCompletion i c).pending = s.pending := rfl
@[simp] theorem State.setCompletion_bus (i : Source) (c : Option Completion) : (s.setCompletion i c).bus = s.bus := rfl
@[simp] theorem State.setCompletion_lines (i : Source) (c : Option Completion) : (s.setCompletion i c).lines = s.lines := rfl
@[simp] theorem State.setCompletion_power (i : Source) (c : Option Completion) : (s.setCompletion i c).power = s.power := rfl
@[simp] theorem State.setCompletion_op (i : Source) (c : Option Completion) : (s.setCompletion i c).op = s.op := rfl
@[simp] theorem State.setCompletion_guardsCleared (i : Source) (c : Option Completion) : (s.setCompletion i c).guardsCleared = s.guardsCleared := rfl
@[simp] theorem State.setCompletion_held (i : Source) (c : Option Completion) : (s.setCompletion i c).held = s.held := rfl
@[simp] theorem State.setCompletion_windows (i : Source) (c : Option Completion) : (s.setCompletion i c).windows = s.windows := rfl
@[simp] theorem State.setCompletion_region (i : Source) (c : Option Completion) : (s.setCompletion i c).region = s.region := rfl
@[simp] theorem State.setCompletion_slots (i : Source) (c : Option Completion) : (s.setCompletion i c).slots = s.slots := rfl
@[simp] theorem State.setCompletion_pool (i : Source) (c : Option Completion) : (s.setCompletion i c).pool = s.pool := rfl
@[simp] theorem State.setCompletion_time (i : Source) (c : Option Completion) : (s.setCompletion i c).time = s.time := rfl
@[simp] theorem State.setCompletion_posted (i : Source) (c : Option Completion) : (s.setCompletion i c).posted = s.posted := rfl
@[simp] theorem State.setCompletion_journal (i : Source) (c : Option Completion) : (s.setCompletion i c).journal = s.journal := rfl
@[simp] theorem State.setCompletion_apply (i : Source) (c : Option Completion) : (s.setCompletion i c).apply = s.apply := rfl
@[simp] theorem State.setCompletion_mp (i : Source) (c : Option Completion) : (s.setCompletion i c).mp = s.mp := rfl
@[simp] theorem State.setCompletion_scanner (i : Source) (c : Option Completion) : (s.setCompletion i c).scanner = s.scanner := rfl
@[simp] theorem State.setCompletion_cl (i : Source) (c : Option Completion) : (s.setCompletion i c).cl = s.cl := rfl
@[simp] theorem State.setCompletion_ml (i : Source) (c : Option Completion) : (s.setCompletion i c).ml = s.ml := rfl
@[simp] theorem State.setCompletion_mem (i : Source) (c : Option Completion) : (s.setCompletion i c).mem = s.mem := rfl
@[simp] theorem State.setCompletion_eeprom (i : Source) (c : Option Completion) : (s.setCompletion i c).eeprom = s.eeprom := rfl
@[simp] theorem State.setCompletion_freeCount (i : Source) (c : Option Completion) : (s.setCompletion i c).freeCount = s.freeCount := rfl

@[simp] theorem State.setLink_pending (i : Source) (k : Option SlotId) : (s.setLink i k).pending = s.pending := rfl
@[simp] theorem State.setLink_bus (i : Source) (k : Option SlotId) : (s.setLink i k).bus = s.bus := rfl
@[simp] theorem State.setLink_lines (i : Source) (k : Option SlotId) : (s.setLink i k).lines = s.lines := rfl
@[simp] theorem State.setLink_power (i : Source) (k : Option SlotId) : (s.setLink i k).power = s.power := rfl
@[simp] theorem State.setLink_op (i : Source) (k : Option SlotId) : (s.setLink i k).op = s.op := rfl
@[simp] theorem State.setLink_guardsCleared (i : Source) (k : Option SlotId) : (s.setLink i k).guardsCleared = s.guardsCleared := rfl
@[simp] theorem State.setLink_held (i : Source) (k : Option SlotId) : (s.setLink i k).held = s.held := rfl
@[simp] theorem State.setLink_windows (i : Source) (k : Option SlotId) : (s.setLink i k).windows = s.windows := rfl
@[simp] theorem State.setLink_region (i : Source) (k : Option SlotId) : (s.setLink i k).region = s.region := rfl
@[simp] theorem State.setLink_slots (i : Source) (k : Option SlotId) : (s.setLink i k).slots = s.slots := rfl
@[simp] theorem State.setLink_pool (i : Source) (k : Option SlotId) : (s.setLink i k).pool = s.pool := rfl
@[simp] theorem State.setLink_time (i : Source) (k : Option SlotId) : (s.setLink i k).time = s.time := rfl
@[simp] theorem State.setLink_posted (i : Source) (k : Option SlotId) : (s.setLink i k).posted = s.posted := rfl
@[simp] theorem State.setLink_journal (i : Source) (k : Option SlotId) : (s.setLink i k).journal = s.journal := rfl
@[simp] theorem State.setLink_apply (i : Source) (k : Option SlotId) : (s.setLink i k).apply = s.apply := rfl
@[simp] theorem State.setLink_mp (i : Source) (k : Option SlotId) : (s.setLink i k).mp = s.mp := rfl
@[simp] theorem State.setLink_scanner (i : Source) (k : Option SlotId) : (s.setLink i k).scanner = s.scanner := rfl
@[simp] theorem State.setLink_cl (i : Source) (k : Option SlotId) : (s.setLink i k).cl = s.cl := rfl
@[simp] theorem State.setLink_ml (i : Source) (k : Option SlotId) : (s.setLink i k).ml = s.ml := rfl
@[simp] theorem State.setLink_mem (i : Source) (k : Option SlotId) : (s.setLink i k).mem = s.mem := rfl
@[simp] theorem State.setLink_eeprom (i : Source) (k : Option SlotId) : (s.setLink i k).eeprom = s.eeprom := rfl
@[simp] theorem State.setLink_freeCount (i : Source) (k : Option SlotId) : (s.setLink i k).freeCount = s.freeCount := rfl

@[simp] theorem State.advanceEpoch_pending (i : Source) : (s.advanceEpoch i).pending = s.pending := rfl
@[simp] theorem State.advanceEpoch_bus (i : Source) : (s.advanceEpoch i).bus = s.bus := rfl
@[simp] theorem State.advanceEpoch_lines (i : Source) : (s.advanceEpoch i).lines = s.lines := rfl
@[simp] theorem State.advanceEpoch_power (i : Source) : (s.advanceEpoch i).power = s.power := rfl
@[simp] theorem State.advanceEpoch_op (i : Source) : (s.advanceEpoch i).op = s.op := rfl
@[simp] theorem State.advanceEpoch_guardsCleared (i : Source) : (s.advanceEpoch i).guardsCleared = s.guardsCleared := rfl
@[simp] theorem State.advanceEpoch_held (i : Source) : (s.advanceEpoch i).held = s.held := rfl
@[simp] theorem State.advanceEpoch_windows (i : Source) : (s.advanceEpoch i).windows = s.windows := rfl
@[simp] theorem State.advanceEpoch_region (i : Source) : (s.advanceEpoch i).region = s.region := rfl
@[simp] theorem State.advanceEpoch_slots (i : Source) : (s.advanceEpoch i).slots = s.slots := rfl
@[simp] theorem State.advanceEpoch_pool (i : Source) : (s.advanceEpoch i).pool = s.pool := rfl
@[simp] theorem State.advanceEpoch_time (i : Source) : (s.advanceEpoch i).time = s.time := rfl
@[simp] theorem State.advanceEpoch_posted (i : Source) : (s.advanceEpoch i).posted = s.posted := rfl
@[simp] theorem State.advanceEpoch_journal (i : Source) : (s.advanceEpoch i).journal = s.journal := rfl
@[simp] theorem State.advanceEpoch_apply (i : Source) : (s.advanceEpoch i).apply = s.apply := rfl
@[simp] theorem State.advanceEpoch_mp (i : Source) : (s.advanceEpoch i).mp = s.mp := rfl
@[simp] theorem State.advanceEpoch_scanner (i : Source) : (s.advanceEpoch i).scanner = s.scanner := rfl
@[simp] theorem State.advanceEpoch_cl (i : Source) : (s.advanceEpoch i).cl = s.cl := rfl
@[simp] theorem State.advanceEpoch_ml (i : Source) : (s.advanceEpoch i).ml = s.ml := rfl
@[simp] theorem State.advanceEpoch_mem (i : Source) : (s.advanceEpoch i).mem = s.mem := rfl
@[simp] theorem State.advanceEpoch_eeprom (i : Source) : (s.advanceEpoch i).eeprom = s.eeprom := rfl
@[simp] theorem State.advanceEpoch_freeCount (i : Source) : (s.advanceEpoch i).freeCount = s.freeCount := rfl

@[simp] theorem State.leaveWaitSets_pending (f : Stamp → Bool) (g : SlotId → Bool) : (s.leaveWaitSets f g).pending = s.pending := rfl
@[simp] theorem State.leaveWaitSets_bus (f : Stamp → Bool) (g : SlotId → Bool) : (s.leaveWaitSets f g).bus = s.bus := rfl
@[simp] theorem State.leaveWaitSets_lines (f : Stamp → Bool) (g : SlotId → Bool) : (s.leaveWaitSets f g).lines = s.lines := rfl
@[simp] theorem State.leaveWaitSets_power (f : Stamp → Bool) (g : SlotId → Bool) : (s.leaveWaitSets f g).power = s.power := rfl
@[simp] theorem State.leaveWaitSets_op (f : Stamp → Bool) (g : SlotId → Bool) : (s.leaveWaitSets f g).op = s.op := rfl
@[simp] theorem State.leaveWaitSets_guardsCleared (f : Stamp → Bool) (g : SlotId → Bool) : (s.leaveWaitSets f g).guardsCleared = s.guardsCleared := rfl
@[simp] theorem State.leaveWaitSets_held (f : Stamp → Bool) (g : SlotId → Bool) : (s.leaveWaitSets f g).held = s.held := rfl
@[simp] theorem State.leaveWaitSets_windows (f : Stamp → Bool) (g : SlotId → Bool) : (s.leaveWaitSets f g).windows = s.windows := rfl
@[simp] theorem State.leaveWaitSets_region (f : Stamp → Bool) (g : SlotId → Bool) : (s.leaveWaitSets f g).region = s.region := rfl
@[simp] theorem State.leaveWaitSets_slots (f : Stamp → Bool) (g : SlotId → Bool) : (s.leaveWaitSets f g).slots = s.slots := rfl
@[simp] theorem State.leaveWaitSets_pool (f : Stamp → Bool) (g : SlotId → Bool) : (s.leaveWaitSets f g).pool = s.pool := rfl
@[simp] theorem State.leaveWaitSets_time (f : Stamp → Bool) (g : SlotId → Bool) : (s.leaveWaitSets f g).time = s.time := rfl
@[simp] theorem State.leaveWaitSets_posted (f : Stamp → Bool) (g : SlotId → Bool) : (s.leaveWaitSets f g).posted = s.posted := rfl
@[simp] theorem State.leaveWaitSets_journal (f : Stamp → Bool) (g : SlotId → Bool) : (s.leaveWaitSets f g).journal = s.journal := rfl
@[simp] theorem State.leaveWaitSets_apply (f : Stamp → Bool) (g : SlotId → Bool) : (s.leaveWaitSets f g).apply = s.apply := rfl
@[simp] theorem State.leaveWaitSets_mp (f : Stamp → Bool) (g : SlotId → Bool) : (s.leaveWaitSets f g).mp = s.mp := rfl
@[simp] theorem State.leaveWaitSets_scanner (f : Stamp → Bool) (g : SlotId → Bool) : (s.leaveWaitSets f g).scanner = s.scanner := rfl
@[simp] theorem State.leaveWaitSets_cl (f : Stamp → Bool) (g : SlotId → Bool) : (s.leaveWaitSets f g).cl = s.cl := rfl
@[simp] theorem State.leaveWaitSets_ml (f : Stamp → Bool) (g : SlotId → Bool) : (s.leaveWaitSets f g).ml = s.ml := rfl
@[simp] theorem State.leaveWaitSets_mem (f : Stamp → Bool) (g : SlotId → Bool) : (s.leaveWaitSets f g).mem = s.mem := rfl
@[simp] theorem State.leaveWaitSets_eeprom (f : Stamp → Bool) (g : SlotId → Bool) : (s.leaveWaitSets f g).eeprom = s.eeprom := rfl
@[simp] theorem State.leaveWaitSets_freeCount (f : Stamp → Bool) (g : SlotId → Bool) : (s.leaveWaitSets f g).freeCount = s.freeCount := rfl

@[simp] theorem State.refuse_pending (src : Source) (kind : RequestKind) (a : Addr) (code : FaultCode) : (s.refuse src kind a code).pending = s.pending := rfl
@[simp] theorem State.refuse_lines (src : Source) (kind : RequestKind) (a : Addr) (code : FaultCode) : (s.refuse src kind a code).lines = s.lines := rfl
@[simp] theorem State.refuse_power (src : Source) (kind : RequestKind) (a : Addr) (code : FaultCode) : (s.refuse src kind a code).power = s.power := rfl
@[simp] theorem State.refuse_op (src : Source) (kind : RequestKind) (a : Addr) (code : FaultCode) : (s.refuse src kind a code).op = s.op := rfl
@[simp] theorem State.refuse_guardsCleared (src : Source) (kind : RequestKind) (a : Addr) (code : FaultCode) : (s.refuse src kind a code).guardsCleared = s.guardsCleared := rfl
@[simp] theorem State.refuse_held (src : Source) (kind : RequestKind) (a : Addr) (code : FaultCode) : (s.refuse src kind a code).held = s.held := rfl
@[simp] theorem State.refuse_windows (src : Source) (kind : RequestKind) (a : Addr) (code : FaultCode) : (s.refuse src kind a code).windows = s.windows := rfl
@[simp] theorem State.refuse_region (src : Source) (kind : RequestKind) (a : Addr) (code : FaultCode) : (s.refuse src kind a code).region = s.region := rfl
@[simp] theorem State.refuse_slots (src : Source) (kind : RequestKind) (a : Addr) (code : FaultCode) : (s.refuse src kind a code).slots = s.slots := rfl
@[simp] theorem State.refuse_pool (src : Source) (kind : RequestKind) (a : Addr) (code : FaultCode) : (s.refuse src kind a code).pool = s.pool := rfl
@[simp] theorem State.refuse_time (src : Source) (kind : RequestKind) (a : Addr) (code : FaultCode) : (s.refuse src kind a code).time = s.time := rfl
@[simp] theorem State.refuse_posted (src : Source) (kind : RequestKind) (a : Addr) (code : FaultCode) : (s.refuse src kind a code).posted = s.posted := rfl
@[simp] theorem State.refuse_journal (src : Source) (kind : RequestKind) (a : Addr) (code : FaultCode) : (s.refuse src kind a code).journal = s.journal := rfl
@[simp] theorem State.refuse_apply (src : Source) (kind : RequestKind) (a : Addr) (code : FaultCode) : (s.refuse src kind a code).apply = s.apply := rfl
@[simp] theorem State.refuse_mp (src : Source) (kind : RequestKind) (a : Addr) (code : FaultCode) : (s.refuse src kind a code).mp = s.mp := rfl
@[simp] theorem State.refuse_scanner (src : Source) (kind : RequestKind) (a : Addr) (code : FaultCode) : (s.refuse src kind a code).scanner = s.scanner := rfl
@[simp] theorem State.refuse_cl (src : Source) (kind : RequestKind) (a : Addr) (code : FaultCode) : (s.refuse src kind a code).cl = s.cl := rfl
@[simp] theorem State.refuse_mem (src : Source) (kind : RequestKind) (a : Addr) (code : FaultCode) : (s.refuse src kind a code).mem = s.mem := rfl
@[simp] theorem State.refuse_eeprom (src : Source) (kind : RequestKind) (a : Addr) (code : FaultCode) : (s.refuse src kind a code).eeprom = s.eeprom := rfl
@[simp] theorem State.refuse_freeCount (src : Source) (kind : RequestKind) (a : Addr) (code : FaultCode) : (s.refuse src kind a code).freeCount = s.freeCount := rfl

@[simp] theorem State.mapPosted_pending (f : PostedEntry → PostedEntry) : (s.mapPosted f).pending = s.pending := rfl
@[simp] theorem State.mapPosted_bus (f : PostedEntry → PostedEntry) : (s.mapPosted f).bus = s.bus := rfl
@[simp] theorem State.mapPosted_lines (f : PostedEntry → PostedEntry) : (s.mapPosted f).lines = s.lines := rfl
@[simp] theorem State.mapPosted_power (f : PostedEntry → PostedEntry) : (s.mapPosted f).power = s.power := rfl
@[simp] theorem State.mapPosted_op (f : PostedEntry → PostedEntry) : (s.mapPosted f).op = s.op := rfl
@[simp] theorem State.mapPosted_guardsCleared (f : PostedEntry → PostedEntry) : (s.mapPosted f).guardsCleared = s.guardsCleared := rfl
@[simp] theorem State.mapPosted_held (f : PostedEntry → PostedEntry) : (s.mapPosted f).held = s.held := rfl
@[simp] theorem State.mapPosted_windows (f : PostedEntry → PostedEntry) : (s.mapPosted f).windows = s.windows := rfl
@[simp] theorem State.mapPosted_region (f : PostedEntry → PostedEntry) : (s.mapPosted f).region = s.region := rfl
@[simp] theorem State.mapPosted_slots (f : PostedEntry → PostedEntry) : (s.mapPosted f).slots = s.slots := rfl
@[simp] theorem State.mapPosted_pool (f : PostedEntry → PostedEntry) : (s.mapPosted f).pool = s.pool := rfl
@[simp] theorem State.mapPosted_sources (f : PostedEntry → PostedEntry) : (s.mapPosted f).sources = s.sources := rfl
@[simp] theorem State.mapPosted_time (f : PostedEntry → PostedEntry) : (s.mapPosted f).time = s.time := rfl
@[simp] theorem State.mapPosted_journal (f : PostedEntry → PostedEntry) : (s.mapPosted f).journal = s.journal := rfl
@[simp] theorem State.mapPosted_apply (f : PostedEntry → PostedEntry) : (s.mapPosted f).apply = s.apply := rfl
@[simp] theorem State.mapPosted_mp (f : PostedEntry → PostedEntry) : (s.mapPosted f).mp = s.mp := rfl
@[simp] theorem State.mapPosted_scanner (f : PostedEntry → PostedEntry) : (s.mapPosted f).scanner = s.scanner := rfl
@[simp] theorem State.mapPosted_cl (f : PostedEntry → PostedEntry) : (s.mapPosted f).cl = s.cl := rfl
@[simp] theorem State.mapPosted_ml (f : PostedEntry → PostedEntry) : (s.mapPosted f).ml = s.ml := rfl
@[simp] theorem State.mapPosted_mem (f : PostedEntry → PostedEntry) : (s.mapPosted f).mem = s.mem := rfl
@[simp] theorem State.mapPosted_eeprom (f : PostedEntry → PostedEntry) : (s.mapPosted f).eeprom = s.eeprom := rfl
@[simp] theorem State.mapPosted_freeCount (f : PostedEntry → PostedEntry) : (s.mapPosted f).freeCount = s.freeCount := rfl

@[simp] theorem State.blockWrapped_pending (f : Source → Bool) : (s.blockWrapped f).pending = s.pending := rfl
@[simp] theorem State.blockWrapped_bus (f : Source → Bool) : (s.blockWrapped f).bus = s.bus := rfl
@[simp] theorem State.blockWrapped_lines (f : Source → Bool) : (s.blockWrapped f).lines = s.lines := rfl
@[simp] theorem State.blockWrapped_power (f : Source → Bool) : (s.blockWrapped f).power = s.power := rfl
@[simp] theorem State.blockWrapped_op (f : Source → Bool) : (s.blockWrapped f).op = s.op := rfl
@[simp] theorem State.blockWrapped_guardsCleared (f : Source → Bool) : (s.blockWrapped f).guardsCleared = s.guardsCleared := rfl
@[simp] theorem State.blockWrapped_held (f : Source → Bool) : (s.blockWrapped f).held = s.held := rfl
@[simp] theorem State.blockWrapped_windows (f : Source → Bool) : (s.blockWrapped f).windows = s.windows := rfl
@[simp] theorem State.blockWrapped_region (f : Source → Bool) : (s.blockWrapped f).region = s.region := rfl
@[simp] theorem State.blockWrapped_slots (f : Source → Bool) : (s.blockWrapped f).slots = s.slots := rfl
@[simp] theorem State.blockWrapped_pool (f : Source → Bool) : (s.blockWrapped f).pool = s.pool := rfl
@[simp] theorem State.blockWrapped_sources (f : Source → Bool) : (s.blockWrapped f).sources = s.sources := rfl
@[simp] theorem State.blockWrapped_time (f : Source → Bool) : (s.blockWrapped f).time = s.time := rfl
@[simp] theorem State.blockWrapped_journal (f : Source → Bool) : (s.blockWrapped f).journal = s.journal := rfl
@[simp] theorem State.blockWrapped_apply (f : Source → Bool) : (s.blockWrapped f).apply = s.apply := rfl
@[simp] theorem State.blockWrapped_mp (f : Source → Bool) : (s.blockWrapped f).mp = s.mp := rfl
@[simp] theorem State.blockWrapped_scanner (f : Source → Bool) : (s.blockWrapped f).scanner = s.scanner := rfl
@[simp] theorem State.blockWrapped_cl (f : Source → Bool) : (s.blockWrapped f).cl = s.cl := rfl
@[simp] theorem State.blockWrapped_ml (f : Source → Bool) : (s.blockWrapped f).ml = s.ml := rfl
@[simp] theorem State.blockWrapped_mem (f : Source → Bool) : (s.blockWrapped f).mem = s.mem := rfl
@[simp] theorem State.blockWrapped_eeprom (f : Source → Bool) : (s.blockWrapped f).eeprom = s.eeprom := rfl
@[simp] theorem State.blockWrapped_freeCount (f : Source → Bool) : (s.blockWrapped f).freeCount = s.freeCount := rfl

@[simp] theorem State.setBarrier_pending (k : SlotId) (b : Option Barrier) : (s.setBarrier k b).pending = s.pending := rfl
@[simp] theorem State.setBarrier_bus (k : SlotId) (b : Option Barrier) : (s.setBarrier k b).bus = s.bus := rfl
@[simp] theorem State.setBarrier_lines (k : SlotId) (b : Option Barrier) : (s.setBarrier k b).lines = s.lines := rfl
@[simp] theorem State.setBarrier_power (k : SlotId) (b : Option Barrier) : (s.setBarrier k b).power = s.power := rfl
@[simp] theorem State.setBarrier_op (k : SlotId) (b : Option Barrier) : (s.setBarrier k b).op = s.op := rfl
@[simp] theorem State.setBarrier_guardsCleared (k : SlotId) (b : Option Barrier) : (s.setBarrier k b).guardsCleared = s.guardsCleared := rfl
@[simp] theorem State.setBarrier_held (k : SlotId) (b : Option Barrier) : (s.setBarrier k b).held = s.held := rfl
@[simp] theorem State.setBarrier_windows (k : SlotId) (b : Option Barrier) : (s.setBarrier k b).windows = s.windows := rfl
@[simp] theorem State.setBarrier_region (k : SlotId) (b : Option Barrier) : (s.setBarrier k b).region = s.region := rfl
@[simp] theorem State.setBarrier_slots (k : SlotId) (b : Option Barrier) : (s.setBarrier k b).slots = s.slots := rfl
@[simp] theorem State.setBarrier_pool (k : SlotId) (b : Option Barrier) : (s.setBarrier k b).pool = s.pool := rfl
@[simp] theorem State.setBarrier_sources (k : SlotId) (b : Option Barrier) : (s.setBarrier k b).sources = s.sources := rfl
@[simp] theorem State.setBarrier_time (k : SlotId) (b : Option Barrier) : (s.setBarrier k b).time = s.time := rfl
@[simp] theorem State.setBarrier_journal (k : SlotId) (b : Option Barrier) : (s.setBarrier k b).journal = s.journal := rfl
@[simp] theorem State.setBarrier_apply (k : SlotId) (b : Option Barrier) : (s.setBarrier k b).apply = s.apply := rfl
@[simp] theorem State.setBarrier_mp (k : SlotId) (b : Option Barrier) : (s.setBarrier k b).mp = s.mp := rfl
@[simp] theorem State.setBarrier_scanner (k : SlotId) (b : Option Barrier) : (s.setBarrier k b).scanner = s.scanner := rfl
@[simp] theorem State.setBarrier_cl (k : SlotId) (b : Option Barrier) : (s.setBarrier k b).cl = s.cl := rfl
@[simp] theorem State.setBarrier_ml (k : SlotId) (b : Option Barrier) : (s.setBarrier k b).ml = s.ml := rfl
@[simp] theorem State.setBarrier_mem (k : SlotId) (b : Option Barrier) : (s.setBarrier k b).mem = s.mem := rfl
@[simp] theorem State.setBarrier_eeprom (k : SlotId) (b : Option Barrier) : (s.setBarrier k b).eeprom = s.eeprom := rfl
@[simp] theorem State.setBarrier_freeCount (k : SlotId) (b : Option Barrier) : (s.setBarrier k b).freeCount = s.freeCount := rfl

@[simp] theorem State.postNew_pending (src : Source) (w : Addr) (m : Mask) (d : Word) (c : Bool) : (s.postNew src w m d c).pending = s.pending := rfl
@[simp] theorem State.postNew_bus (src : Source) (w : Addr) (m : Mask) (d : Word) (c : Bool) : (s.postNew src w m d c).bus = s.bus := rfl
@[simp] theorem State.postNew_lines (src : Source) (w : Addr) (m : Mask) (d : Word) (c : Bool) : (s.postNew src w m d c).lines = s.lines := rfl
@[simp] theorem State.postNew_power (src : Source) (w : Addr) (m : Mask) (d : Word) (c : Bool) : (s.postNew src w m d c).power = s.power := rfl
@[simp] theorem State.postNew_op (src : Source) (w : Addr) (m : Mask) (d : Word) (c : Bool) : (s.postNew src w m d c).op = s.op := rfl
@[simp] theorem State.postNew_guardsCleared (src : Source) (w : Addr) (m : Mask) (d : Word) (c : Bool) : (s.postNew src w m d c).guardsCleared = s.guardsCleared := rfl
@[simp] theorem State.postNew_held (src : Source) (w : Addr) (m : Mask) (d : Word) (c : Bool) : (s.postNew src w m d c).held = s.held := rfl
@[simp] theorem State.postNew_windows (src : Source) (w : Addr) (m : Mask) (d : Word) (c : Bool) : (s.postNew src w m d c).windows = s.windows := rfl
@[simp] theorem State.postNew_region (src : Source) (w : Addr) (m : Mask) (d : Word) (c : Bool) : (s.postNew src w m d c).region = s.region := rfl
@[simp] theorem State.postNew_slots (src : Source) (w : Addr) (m : Mask) (d : Word) (c : Bool) : (s.postNew src w m d c).slots = s.slots := rfl
@[simp] theorem State.postNew_pool (src : Source) (w : Addr) (m : Mask) (d : Word) (c : Bool) : (s.postNew src w m d c).pool = s.pool := rfl
@[simp] theorem State.postNew_sources (src : Source) (w : Addr) (m : Mask) (d : Word) (c : Bool) : (s.postNew src w m d c).sources = s.sources := rfl
@[simp] theorem State.postNew_time (src : Source) (w : Addr) (m : Mask) (d : Word) (c : Bool) : (s.postNew src w m d c).time = s.time := rfl
@[simp] theorem State.postNew_journal (src : Source) (w : Addr) (m : Mask) (d : Word) (c : Bool) : (s.postNew src w m d c).journal = s.journal := rfl
@[simp] theorem State.postNew_apply (src : Source) (w : Addr) (m : Mask) (d : Word) (c : Bool) : (s.postNew src w m d c).apply = s.apply := rfl
@[simp] theorem State.postNew_mp (src : Source) (w : Addr) (m : Mask) (d : Word) (c : Bool) : (s.postNew src w m d c).mp = s.mp := rfl
@[simp] theorem State.postNew_scanner (src : Source) (w : Addr) (m : Mask) (d : Word) (c : Bool) : (s.postNew src w m d c).scanner = s.scanner := rfl
@[simp] theorem State.postNew_cl (src : Source) (w : Addr) (m : Mask) (d : Word) (c : Bool) : (s.postNew src w m d c).cl = s.cl := rfl
@[simp] theorem State.postNew_ml (src : Source) (w : Addr) (m : Mask) (d : Word) (c : Bool) : (s.postNew src w m d c).ml = s.ml := rfl
@[simp] theorem State.postNew_mem (src : Source) (w : Addr) (m : Mask) (d : Word) (c : Bool) : (s.postNew src w m d c).mem = s.mem := rfl
@[simp] theorem State.postNew_eeprom (src : Source) (w : Addr) (m : Mask) (d : Word) (c : Bool) : (s.postNew src w m d c).eeprom = s.eeprom := rfl
@[simp] theorem State.postNew_freeCount (src : Source) (w : Addr) (m : Mask) (d : Word) (c : Bool) : (s.postNew src w m d c).freeCount = s.freeCount := rfl

@[simp] theorem State.takeSlot_pending (src : Source) (k : SlotId) (n : Nat) : (s.takeSlot src k n).pending = s.pending := rfl
@[simp] theorem State.takeSlot_bus (src : Source) (k : SlotId) (n : Nat) : (s.takeSlot src k n).bus = s.bus := rfl
@[simp] theorem State.takeSlot_lines (src : Source) (k : SlotId) (n : Nat) : (s.takeSlot src k n).lines = s.lines := rfl
@[simp] theorem State.takeSlot_power (src : Source) (k : SlotId) (n : Nat) : (s.takeSlot src k n).power = s.power := rfl
@[simp] theorem State.takeSlot_op (src : Source) (k : SlotId) (n : Nat) : (s.takeSlot src k n).op = s.op := rfl
@[simp] theorem State.takeSlot_guardsCleared (src : Source) (k : SlotId) (n : Nat) : (s.takeSlot src k n).guardsCleared = s.guardsCleared := rfl
@[simp] theorem State.takeSlot_held (src : Source) (k : SlotId) (n : Nat) : (s.takeSlot src k n).held = s.held := rfl
@[simp] theorem State.takeSlot_windows (src : Source) (k : SlotId) (n : Nat) : (s.takeSlot src k n).windows = s.windows := rfl
@[simp] theorem State.takeSlot_region (src : Source) (k : SlotId) (n : Nat) : (s.takeSlot src k n).region = s.region := rfl
@[simp] theorem State.takeSlot_pool (src : Source) (k : SlotId) (n : Nat) : (s.takeSlot src k n).pool = s.pool := rfl
@[simp] theorem State.takeSlot_time (src : Source) (k : SlotId) (n : Nat) : (s.takeSlot src k n).time = s.time := rfl
@[simp] theorem State.takeSlot_posted (src : Source) (k : SlotId) (n : Nat) : (s.takeSlot src k n).posted = s.posted := rfl
@[simp] theorem State.takeSlot_journal (src : Source) (k : SlotId) (n : Nat) : (s.takeSlot src k n).journal = s.journal := rfl
@[simp] theorem State.takeSlot_apply (src : Source) (k : SlotId) (n : Nat) : (s.takeSlot src k n).apply = s.apply := rfl
@[simp] theorem State.takeSlot_mp (src : Source) (k : SlotId) (n : Nat) : (s.takeSlot src k n).mp = s.mp := rfl
@[simp] theorem State.takeSlot_scanner (src : Source) (k : SlotId) (n : Nat) : (s.takeSlot src k n).scanner = s.scanner := rfl
@[simp] theorem State.takeSlot_cl (src : Source) (k : SlotId) (n : Nat) : (s.takeSlot src k n).cl = s.cl := rfl
@[simp] theorem State.takeSlot_ml (src : Source) (k : SlotId) (n : Nat) : (s.takeSlot src k n).ml = s.ml := rfl
@[simp] theorem State.takeSlot_mem (src : Source) (k : SlotId) (n : Nat) : (s.takeSlot src k n).mem = s.mem := rfl
@[simp] theorem State.takeSlot_eeprom (src : Source) (k : SlotId) (n : Nat) : (s.takeSlot src k n).eeprom = s.eeprom := rfl
@[simp] theorem State.takeSlot_freeCount (src : Source) (k : SlotId) (n : Nat) : (s.takeSlot src k n).freeCount = s.freeCount := rfl

@[simp] theorem State.setScanner_pending (x : Scanner) : (s.setScanner x).pending = s.pending := rfl
@[simp] theorem State.setScanner_bus (x : Scanner) : (s.setScanner x).bus = s.bus := rfl
@[simp] theorem State.setScanner_lines (x : Scanner) : (s.setScanner x).lines = s.lines := rfl
@[simp] theorem State.setScanner_power (x : Scanner) : (s.setScanner x).power = s.power := rfl
@[simp] theorem State.setScanner_op (x : Scanner) : (s.setScanner x).op = s.op := rfl
@[simp] theorem State.setScanner_guardsCleared (x : Scanner) : (s.setScanner x).guardsCleared = s.guardsCleared := rfl
@[simp] theorem State.setScanner_held (x : Scanner) : (s.setScanner x).held = s.held := rfl
@[simp] theorem State.setScanner_windows (x : Scanner) : (s.setScanner x).windows = s.windows := rfl
@[simp] theorem State.setScanner_region (x : Scanner) : (s.setScanner x).region = s.region := rfl
@[simp] theorem State.setScanner_slots (x : Scanner) : (s.setScanner x).slots = s.slots := rfl
@[simp] theorem State.setScanner_pool (x : Scanner) : (s.setScanner x).pool = s.pool := rfl
@[simp] theorem State.setScanner_sources (x : Scanner) : (s.setScanner x).sources = s.sources := rfl
@[simp] theorem State.setScanner_time (x : Scanner) : (s.setScanner x).time = s.time := rfl
@[simp] theorem State.setScanner_posted (x : Scanner) : (s.setScanner x).posted = s.posted := rfl
@[simp] theorem State.setScanner_journal (x : Scanner) : (s.setScanner x).journal = s.journal := rfl
@[simp] theorem State.setScanner_apply (x : Scanner) : (s.setScanner x).apply = s.apply := rfl
@[simp] theorem State.setScanner_mp (x : Scanner) : (s.setScanner x).mp = s.mp := rfl
@[simp] theorem State.setScanner_cl (x : Scanner) : (s.setScanner x).cl = s.cl := rfl
@[simp] theorem State.setScanner_ml (x : Scanner) : (s.setScanner x).ml = s.ml := rfl
@[simp] theorem State.setScanner_mem (x : Scanner) : (s.setScanner x).mem = s.mem := rfl
@[simp] theorem State.setScanner_eeprom (x : Scanner) : (s.setScanner x).eeprom = s.eeprom := rfl
@[simp] theorem State.setScanner_freeCount (x : Scanner) : (s.setScanner x).freeCount = s.freeCount := rfl

@[simp] theorem State.setLinkOp_pending (op : LinkOp) : (s.setLinkOp op).pending = s.pending := rfl
@[simp] theorem State.setLinkOp_bus (op : LinkOp) : (s.setLinkOp op).bus = s.bus := rfl
@[simp] theorem State.setLinkOp_lines (op : LinkOp) : (s.setLinkOp op).lines = s.lines := rfl
@[simp] theorem State.setLinkOp_power (op : LinkOp) : (s.setLinkOp op).power = s.power := rfl
@[simp] theorem State.setLinkOp_op (op : LinkOp) : (s.setLinkOp op).op = s.op := rfl
@[simp] theorem State.setLinkOp_guardsCleared (op : LinkOp) : (s.setLinkOp op).guardsCleared = s.guardsCleared := rfl
@[simp] theorem State.setLinkOp_held (op : LinkOp) : (s.setLinkOp op).held = s.held := rfl
@[simp] theorem State.setLinkOp_windows (op : LinkOp) : (s.setLinkOp op).windows = s.windows := rfl
@[simp] theorem State.setLinkOp_region (op : LinkOp) : (s.setLinkOp op).region = s.region := rfl
@[simp] theorem State.setLinkOp_slots (op : LinkOp) : (s.setLinkOp op).slots = s.slots := rfl
@[simp] theorem State.setLinkOp_pool (op : LinkOp) : (s.setLinkOp op).pool = s.pool := rfl
@[simp] theorem State.setLinkOp_sources (op : LinkOp) : (s.setLinkOp op).sources = s.sources := rfl
@[simp] theorem State.setLinkOp_time (op : LinkOp) : (s.setLinkOp op).time = s.time := rfl
@[simp] theorem State.setLinkOp_posted (op : LinkOp) : (s.setLinkOp op).posted = s.posted := rfl
@[simp] theorem State.setLinkOp_journal (op : LinkOp) : (s.setLinkOp op).journal = s.journal := rfl
@[simp] theorem State.setLinkOp_apply (op : LinkOp) : (s.setLinkOp op).apply = s.apply := rfl
@[simp] theorem State.setLinkOp_mp (op : LinkOp) : (s.setLinkOp op).mp = s.mp := rfl
@[simp] theorem State.setLinkOp_scanner (op : LinkOp) : (s.setLinkOp op).scanner = s.scanner := rfl
@[simp] theorem State.setLinkOp_ml (op : LinkOp) : (s.setLinkOp op).ml = s.ml := rfl
@[simp] theorem State.setLinkOp_mem (op : LinkOp) : (s.setLinkOp op).mem = s.mem := rfl
@[simp] theorem State.setLinkOp_eeprom (op : LinkOp) : (s.setLinkOp op).eeprom = s.eeprom := rfl
@[simp] theorem State.setLinkOp_freeCount (op : LinkOp) : (s.setLinkOp op).freeCount = s.freeCount := rfl

@[simp] theorem State.beginLinkOp_pending (op : LinkOp) : (s.beginLinkOp op).pending = s.pending := rfl
@[simp] theorem State.beginLinkOp_bus (op : LinkOp) : (s.beginLinkOp op).bus = s.bus := rfl
@[simp] theorem State.beginLinkOp_lines (op : LinkOp) : (s.beginLinkOp op).lines = s.lines := rfl
@[simp] theorem State.beginLinkOp_power (op : LinkOp) : (s.beginLinkOp op).power = s.power := rfl
@[simp] theorem State.beginLinkOp_op (op : LinkOp) : (s.beginLinkOp op).op = s.op := rfl
@[simp] theorem State.beginLinkOp_guardsCleared (op : LinkOp) : (s.beginLinkOp op).guardsCleared = s.guardsCleared := rfl
@[simp] theorem State.beginLinkOp_held (op : LinkOp) : (s.beginLinkOp op).held = s.held := rfl
@[simp] theorem State.beginLinkOp_windows (op : LinkOp) : (s.beginLinkOp op).windows = s.windows := rfl
@[simp] theorem State.beginLinkOp_region (op : LinkOp) : (s.beginLinkOp op).region = s.region := rfl
@[simp] theorem State.beginLinkOp_slots (op : LinkOp) : (s.beginLinkOp op).slots = s.slots := rfl
@[simp] theorem State.beginLinkOp_pool (op : LinkOp) : (s.beginLinkOp op).pool = s.pool := rfl
@[simp] theorem State.beginLinkOp_sources (op : LinkOp) : (s.beginLinkOp op).sources = s.sources := rfl
@[simp] theorem State.beginLinkOp_time (op : LinkOp) : (s.beginLinkOp op).time = s.time := rfl
@[simp] theorem State.beginLinkOp_posted (op : LinkOp) : (s.beginLinkOp op).posted = s.posted := rfl
@[simp] theorem State.beginLinkOp_journal (op : LinkOp) : (s.beginLinkOp op).journal = s.journal := rfl
@[simp] theorem State.beginLinkOp_apply (op : LinkOp) : (s.beginLinkOp op).apply = s.apply := rfl
@[simp] theorem State.beginLinkOp_mp (op : LinkOp) : (s.beginLinkOp op).mp = s.mp := rfl
@[simp] theorem State.beginLinkOp_scanner (op : LinkOp) : (s.beginLinkOp op).scanner = s.scanner := rfl
@[simp] theorem State.beginLinkOp_ml (op : LinkOp) : (s.beginLinkOp op).ml = s.ml := rfl
@[simp] theorem State.beginLinkOp_mem (op : LinkOp) : (s.beginLinkOp op).mem = s.mem := rfl
@[simp] theorem State.beginLinkOp_eeprom (op : LinkOp) : (s.beginLinkOp op).eeprom = s.eeprom := rfl
@[simp] theorem State.beginLinkOp_freeCount (op : LinkOp) : (s.beginLinkOp op).freeCount = s.freeCount := rfl

@[simp] theorem State.setStoredGuardInUse_pending (w : WindowId) (v : Bool) : (s.setStoredGuardInUse w v).pending = s.pending := rfl
@[simp] theorem State.setStoredGuardInUse_bus (w : WindowId) (v : Bool) : (s.setStoredGuardInUse w v).bus = s.bus := rfl
@[simp] theorem State.setStoredGuardInUse_lines (w : WindowId) (v : Bool) : (s.setStoredGuardInUse w v).lines = s.lines := rfl
@[simp] theorem State.setStoredGuardInUse_power (w : WindowId) (v : Bool) : (s.setStoredGuardInUse w v).power = s.power := rfl
@[simp] theorem State.setStoredGuardInUse_op (w : WindowId) (v : Bool) : (s.setStoredGuardInUse w v).op = s.op := rfl
@[simp] theorem State.setStoredGuardInUse_guardsCleared (w : WindowId) (v : Bool) : (s.setStoredGuardInUse w v).guardsCleared = s.guardsCleared := rfl
@[simp] theorem State.setStoredGuardInUse_held (w : WindowId) (v : Bool) : (s.setStoredGuardInUse w v).held = s.held := rfl
@[simp] theorem State.setStoredGuardInUse_region (w : WindowId) (v : Bool) : (s.setStoredGuardInUse w v).region = s.region := rfl
@[simp] theorem State.setStoredGuardInUse_slots (w : WindowId) (v : Bool) : (s.setStoredGuardInUse w v).slots = s.slots := rfl
@[simp] theorem State.setStoredGuardInUse_pool (w : WindowId) (v : Bool) : (s.setStoredGuardInUse w v).pool = s.pool := rfl
@[simp] theorem State.setStoredGuardInUse_sources (w : WindowId) (v : Bool) : (s.setStoredGuardInUse w v).sources = s.sources := rfl
@[simp] theorem State.setStoredGuardInUse_time (w : WindowId) (v : Bool) : (s.setStoredGuardInUse w v).time = s.time := rfl
@[simp] theorem State.setStoredGuardInUse_posted (w : WindowId) (v : Bool) : (s.setStoredGuardInUse w v).posted = s.posted := rfl
@[simp] theorem State.setStoredGuardInUse_journal (w : WindowId) (v : Bool) : (s.setStoredGuardInUse w v).journal = s.journal := rfl
@[simp] theorem State.setStoredGuardInUse_apply (w : WindowId) (v : Bool) : (s.setStoredGuardInUse w v).apply = s.apply := rfl
@[simp] theorem State.setStoredGuardInUse_mp (w : WindowId) (v : Bool) : (s.setStoredGuardInUse w v).mp = s.mp := rfl
@[simp] theorem State.setStoredGuardInUse_scanner (w : WindowId) (v : Bool) : (s.setStoredGuardInUse w v).scanner = s.scanner := rfl
@[simp] theorem State.setStoredGuardInUse_cl (w : WindowId) (v : Bool) : (s.setStoredGuardInUse w v).cl = s.cl := rfl
@[simp] theorem State.setStoredGuardInUse_ml (w : WindowId) (v : Bool) : (s.setStoredGuardInUse w v).ml = s.ml := rfl
@[simp] theorem State.setStoredGuardInUse_mem (w : WindowId) (v : Bool) : (s.setStoredGuardInUse w v).mem = s.mem := rfl
@[simp] theorem State.setStoredGuardInUse_eeprom (w : WindowId) (v : Bool) : (s.setStoredGuardInUse w v).eeprom = s.eeprom := rfl
@[simp] theorem State.setStoredGuardInUse_freeCount (w : WindowId) (v : Bool) : (s.setStoredGuardInUse w v).freeCount = s.freeCount := rfl

@[simp] theorem State.takeWrite_pending (k : SlotId) (w : Option WindowId) : (s.takeWrite k w).pending = s.pending := rfl
@[simp] theorem State.takeWrite_bus (k : SlotId) (w : Option WindowId) : (s.takeWrite k w).bus = s.bus := rfl
@[simp] theorem State.takeWrite_lines (k : SlotId) (w : Option WindowId) : (s.takeWrite k w).lines = s.lines := rfl
@[simp] theorem State.takeWrite_power (k : SlotId) (w : Option WindowId) : (s.takeWrite k w).power = s.power := rfl
@[simp] theorem State.takeWrite_op (k : SlotId) (w : Option WindowId) : (s.takeWrite k w).op = s.op := rfl
@[simp] theorem State.takeWrite_guardsCleared (k : SlotId) (w : Option WindowId) : (s.takeWrite k w).guardsCleared = s.guardsCleared := rfl
@[simp] theorem State.takeWrite_held (k : SlotId) (w : Option WindowId) : (s.takeWrite k w).held = s.held := rfl
@[simp] theorem State.takeWrite_windows (k : SlotId) (w : Option WindowId) : (s.takeWrite k w).windows = s.windows := rfl
@[simp] theorem State.takeWrite_region (k : SlotId) (w : Option WindowId) : (s.takeWrite k w).region = s.region := rfl
@[simp] theorem State.takeWrite_pool (k : SlotId) (w : Option WindowId) : (s.takeWrite k w).pool = s.pool := rfl
@[simp] theorem State.takeWrite_sources (k : SlotId) (w : Option WindowId) : (s.takeWrite k w).sources = s.sources := rfl
@[simp] theorem State.takeWrite_time (k : SlotId) (w : Option WindowId) : (s.takeWrite k w).time = s.time := rfl
@[simp] theorem State.takeWrite_posted (k : SlotId) (w : Option WindowId) : (s.takeWrite k w).posted = s.posted := rfl
@[simp] theorem State.takeWrite_journal (k : SlotId) (w : Option WindowId) : (s.takeWrite k w).journal = s.journal := rfl
@[simp] theorem State.takeWrite_apply (k : SlotId) (w : Option WindowId) : (s.takeWrite k w).apply = s.apply := rfl
@[simp] theorem State.takeWrite_mp (k : SlotId) (w : Option WindowId) : (s.takeWrite k w).mp = s.mp := rfl
@[simp] theorem State.takeWrite_scanner (k : SlotId) (w : Option WindowId) : (s.takeWrite k w).scanner = s.scanner := rfl
@[simp] theorem State.takeWrite_cl (k : SlotId) (w : Option WindowId) : (s.takeWrite k w).cl = s.cl := rfl
@[simp] theorem State.takeWrite_ml (k : SlotId) (w : Option WindowId) : (s.takeWrite k w).ml = s.ml := rfl
@[simp] theorem State.takeWrite_mem (k : SlotId) (w : Option WindowId) : (s.takeWrite k w).mem = s.mem := rfl
@[simp] theorem State.takeWrite_eeprom (k : SlotId) (w : Option WindowId) : (s.takeWrite k w).eeprom = s.eeprom := rfl
@[simp] theorem State.takeWrite_freeCount (k : SlotId) (w : Option WindowId) : (s.takeWrite k w).freeCount = s.freeCount := rfl

/-! ### What the updates put -/

@[simp] theorem State.reply_bus (src : Source) (a : Answer) : (s.reply src a).bus = .answer src a := rfl
@[simp] theorem State.replyFault_bus (src : Source) (kind : RequestKind) (a : Addr) (code : FaultCode) :
    (s.replyFault src kind a code).bus = .answer src (.fault code) := rfl
@[simp] theorem State.quiet_bus : s.quiet.bus = .none := rfl

@[simp] theorem State.setSlot_slot_self (k : SlotId) (x : Slot) : (s.setSlot k x).slot k = x := by
  simp [State.setSlot, State.slot]

theorem State.setSlot_slot_ne {j k : SlotId} (h : k ≠ j) (x : Slot) : (s.setSlot k x).slot j = s.slot j := by
  simp only [State.setSlot, State.slot, Fin.getElem_fin]
  exact Vector.getElem_set_ne _ _ (fun e => h (Fin.ext e))

theorem State.setSlot_slot (j k : SlotId) (x : Slot) :
    (s.setSlot k x).slot j = if k = j then x else s.slot j := by
  by_cases h : k = j
  · subst h; simp
  · simp [h, State.setSlot_slot_ne]

@[simp] theorem State.setSource_source_self (i : Source) (e : SourceEntry) : (s.setSource i e).source i = e := by
  simp [State.setSource, State.source]

theorem State.setSource_source_ne {i j : Source} (h : i ≠ j) (e : SourceEntry) :
    (s.setSource i e).source j = s.source j := by
  simp only [State.setSource, State.source, Fin.getElem_fin]
  exact Vector.getElem_set_ne _ _ (fun x => h (Fin.ext x))

theorem State.setSource_source (i j : Source) (e : SourceEntry) :
    (s.setSource i e).source j = if i = j then e else s.source j := by
  by_cases h : i = j
  · subst h; simp
  · simp [h, State.setSource_source_ne]

@[simp] theorem State.mapSources_source (f : Source → SourceEntry → SourceEntry) (i : Source) :
    (s.mapSources f).source i = f i (s.source i) := by
  simp [State.mapSources, State.source]

theorem State.releaseEntries_entry (k : SlotId) (i : Fin 96) :
    (s.releaseEntries k).pool[i] = if ownedBy k s.pool[i] then none else s.pool[i] := by
  simp [State.releaseEntries]

/-- A slot's state is read through the slots alone. -/
theorem State.slot_congr {s t : State} (h : t.slots = s.slots) (k : SlotId) : t.slot k = s.slot k := by
  simp only [State.slot, h]

/-- A source's entry is read through the Source Table alone. -/
theorem State.source_congr {s t : State} (h : t.sources = s.sources) (i : Source) : t.source i = s.source i := by
  simp only [State.source, h]

/-- Two flags have two bits. -/
theorem Flag.bit_inj : ∀ {f g : Flag}, f.bit = g.bit → f = g := by
  intro f g h
  cases f <;> cases g <;> first | rfl | exact absurd (congrArg Fin.val h) (by decide)

/-- Two counters have two places. -/
theorem Counter.index_inj : ∀ {c d : Counter}, c.index = d.index → c = d := by
  intro c d h
  cases c <;> cases d <;> first | rfl | exact absurd (congrArg Fin.val h) (by decide)

/-- The flag set is set, and no flag is cleared. -/
theorem State.setFlag_flag (f g : Flag) : (s.setFlag f).flag g = (decide (f = g) || s.flag g) := by
  have h : decide (f.bit.val = g.bit.val) = decide (f = g) :=
    decide_eq_decide.2 ⟨fun e => Flag.bit_inj (Fin.ext e), fun e => by rw [e]⟩
  simp only [State.setFlag, State.flag, BitVec.getLsbD_or, BitVec.getLsbD_twoPow, h, f.bit.isLt, decide_true,
    Bool.true_and]
  exact Bool.or_comm _ _

/-- A counter advances by one, stopping at its limit; the others keep their values. -/
theorem State.count_counter (c d : Counter) :
    (s.count c).counter d = if c = d then saturatingSucc (s.counter c) else s.counter d := by
  by_cases h : c = d
  · subst h
    simp [State.count, State.counter]
  · have hi : c.index.val ≠ d.index.val := fun e => h (Counter.index_inj (Fin.ext e))
    simp only [State.count, State.counter, Fin.getElem_fin, h, if_false]
    exact Vector.getElem_set_ne _ _ hi

/-- A counter never falls when it advances. -/
theorem le_saturatingSucc (n : Word) : n.toNat ≤ (saturatingSucc n).toNat := by
  unfold saturatingSucc
  split
  · exact Nat.le_refl _
  · rename_i h
    have : n.toNat ≠ 4294967295 := fun e => h (BitVec.eq_of_toNat_eq (by simpa using e))
    have := n.isLt
    have one : (1 : Word).toNat = 1 := rfl
    simp only [BitVec.toNat_add, one]
    omega

end Sys2Proof.Machine
end

