-- ==== Sys2Proof/Laws/Ops.lean ====
section
/-! SUPPORT. What each shared operation may change, said once: for an operation that branches, the fields it can change
are named and every other field is as before. -/

namespace Sys2Proof.Machine

variable (s : State)

/-! ### Tables -/

@[simp] theorem State.setSource_source_eq (i : Source) : s.setSource i (s.source i) = s := by
  simp [State.setSource, State.source]

@[simp] theorem State.setSlot_slot_eq (k : SlotId) : s.setSlot k (s.slot k) = s := by
  simp [State.setSlot, State.slot]

/-- Every slot is in the list of slots. -/
theorem mem_allSlots (k : SlotId) : k ∈ allSlots := by
  revert k; decide

/-- An operation on one slot after the other keeps what each single one keeps. -/
theorem foldl_keeps {α β : Type} {f : α → β → α} {P : α → Prop} (step : ∀ a b, P a → P (f a b)) :
    ∀ (l : List β) (a : α), P a → P (l.foldl f a)
  | [], _, h => h
  | b :: l, a, h => foldl_keeps step l (f a b) (step a b h)

/-! ### Claims and the pool -/

/-- A word that the claim lookup finds is claimed by that entry. -/
theorem State.claimOf_some {w : Addr} {e : StagingEntry} (h : s.claimOf w = some e) :
    e.word = w ∧ ∃ i : Fin 96, s.pool[i] = some e := by
  unfold State.claimOf at h
  obtain ⟨x, hx, he⟩ := List.exists_of_findSome?_eq_some h
  cases x with
  | none => simp at he
  | some y =>
    simp only at he
    split at he
    · rename_i hw
      have hy : y = e := by simpa using he
      subst hy
      refine ⟨hw, ?_⟩
      rw [Vector.mem_toList_iff] at hx
      obtain ⟨i, hi, hxi⟩ := Vector.mem_iff_getElem.1 hx
      exact ⟨⟨i, hi⟩, hxi⟩
    · simp at he

/-- A word that the claim lookup does not find is claimed by no entry. -/
theorem State.claimOf_none {w : Addr} (h : s.claimOf w = none) (i : Fin 96) {e : StagingEntry}
    (he : s.pool[i] = some e) : e.word ≠ w := by
  intro hw
  unfold State.claimOf at h
  rw [List.findSome?_eq_none_iff] at h
  have := h (some e) (by rw [Vector.mem_toList_iff, ← he]; exact Vector.getElem_mem i.isLt)
  simp [hw] at this

/-- The free entry found is free. -/
theorem State.freeEntry_some {i : Fin 96} (h : s.freeEntry = some i) : s.pool[i] = none := by
  have := List.find?_some h
  simpa using this

/-- The FREE slot found is FREE, and no lower slot is. -/
theorem State.freeSlotId_some {k : SlotId} (h : s.freeSlotId = some k) : (s.slot k).state = .free := by
  have := List.find?_some h
  simpa using this

/-- The slot found in SEALING is in SEALING. -/
theorem State.sealingSlot_some {k : SlotId} (h : s.sealingSlot = some k) : (s.slot k).state = .sealing := by
  have := List.find?_some h
  simpa using this

/-- No slot found in SEALING: none is. -/
theorem State.sealingSlot_none (h : s.sealingSlot = none) (k : SlotId) : (s.slot k).state ≠ .sealing := by
  have := List.find?_eq_none.1 h k (mem_allSlots k)
  simpa using this

/-! ### Operations that branch -/

/-- The hold comparison changes at most the source's hold record. -/
theorem State.compareHold_eq (src : Source) (same : HeldRequest → Bool) :
    ∃ h, s.compareHold src same = s.setSource src { s.source src with hold := h } := by
  unfold State.compareHold
  split
  · rename_i h0
    exact ⟨none, by rw [← h0, State.setSource_source_eq]⟩
  · rename_i h h0
    split
    · exact ⟨some h, by rw [← h0, State.setSource_source_eq]⟩
    · exact ⟨none, rfl⟩

/-- Holding a request writes at most the source's hold record, and answers RETRY. -/
theorem State.holdRequest_eq (src : Source) (request : HeldRequest) :
    ∃ h, s.holdRequest src request = (s.setSource src { s.source src with hold := some h }).reply src .retry := by
  unfold State.holdRequest
  split
  · exact ⟨_, rfl⟩
  · rename_i h h0
    exact ⟨h, by rw [← h0, State.setSource_source_eq]⟩

/-- A source without a completion record has none to abandon. -/
theorem State.abandon_of_none {src : Source} (h : (s.source src).completion = none) : s.abandon src = s := by
  simp [State.abandon, h]

/-- A completion record is dropped and counted as abandoned. -/
theorem State.abandon_of_some {src : Source} {c : Completion} (h : (s.source src).completion = some c) :
    s.abandon src =
      (s.setSource src { s.source src with completion := none }).count .abandonedNotices := by
  simp [State.abandon, h]

/-- Staging changes the Staging Pool alone. -/
theorem State.stage_eq (k : SlotId) (word : Addr) (mask : Mask) (data : Word) :
    ∃ pool, s.stage k word mask data = { s with pool } := by
  unfold State.stage State.stageNew State.stageMerge
  split
  · split
    · exact ⟨s.pool, rfl⟩
    · exact ⟨_, rfl⟩
  · exact ⟨_, rfl⟩

/-- Posting changes the entries and the next arrival stamp of the Posted Write Queue alone. -/
theorem State.post_eq (src : Source) (word : Addr) (mask : Mask) (data : Word) (combine : Bool) :
    ∃ entries nextStamp, s.post src word mask data combine =
      { s with posted := { s.posted with entries, nextStamp } } := by
  unfold State.post State.postNew
  split
  · exact ⟨_, _, rfl⟩
  · exact ⟨_, _, rfl⟩

/-- Freeing a slot changes the slots and the Staging Pool alone. -/
theorem State.freeSlot_eq (k : SlotId) :
    s.freeSlot k = { s with pool := (s.releaseEntries k).pool, slots := s.slots.set k Slot.empty } := by
  simp only [State.freeSlot, State.setSlot, State.releaseEntries]

/-- Releasing a slot's entries changes the Staging Pool alone. -/
theorem State.releaseEntries_eq (k : SlotId) : ∃ pool, s.releaseEntries k = { s with pool } :=
  ⟨(s.releaseEntries k).pool, by simp only [State.releaseEntries]⟩

/-- An abort changes the slots, the Staging Pool and the Management Link's flags, counters and last-end record. -/
theorem State.abortGroup_eq (k : SlotId) (cause : AbortCause) :
    ∃ slots pool flags counters lastEnd, s.abortGroup k cause =
      { s with slots, pool, ml := { s.ml with flags, counters, lastEnd } } := by
  obtain ⟨pool, hp⟩ := s.releaseEntries_eq k
  by_cases c : cause = .guardProtected
  · simp only [State.abortGroup, State.noteGuardRefusal, hp, c, if_true, State.setSlot, State.count, State.setFlag,
      State.recordEnd]
    exact ⟨_, _, _, _, _, rfl⟩
  · simp only [State.abortGroup, hp, c, if_false, State.setSlot, State.count, State.setFlag, State.recordEnd]
    exact ⟨_, _, _, _, _, rfl⟩

/-- Taking the head of the Apply Queue changes the Apply Engine and the slots alone. -/
theorem State.takeApplyHead_eq : ∃ apply slots, s.takeApplyHead = { s with apply, slots } := by
  unfold State.takeApplyHead
  split
  · exact ⟨_, _, rfl⟩
  · exact ⟨_, _, rfl⟩

/-- The finding of a ring-space wait changes the wait itself, the flags and the counters alone. -/
theorem State.noteRingWait_eq :
    ∃ ringWait flags counters, s.noteRingWait =
      { s with journal := { s.journal with ringWait }, ml := { s.ml with flags, counters } } := by
  unfold State.noteRingWait
  split
  · exact ⟨_, _, _, rfl⟩
  · split <;> exact ⟨_, _, _, rfl⟩

/-- A port that may not grant grants nothing. -/
theorem State.grant_of_not_mayGrant (h : s.mayGrant = false) : s.grant = s := by
  simp [State.grant, h]

/-- The note of a grant touches the held READ and the head entry's WRITING alone. -/
theorem State.noteGrant_eq (r : Rotor) :
    ∃ held entries, s.noteGrant r = { s with held, posted := { s.posted with entries } } := by
  unfold State.noteGrant
  split
  · exact ⟨_, _, rfl⟩
  · split <;> exact ⟨_, _, rfl⟩
  · exact ⟨_, _, rfl⟩
  · exact ⟨_, _, rfl⟩

/-- A grant changes the operation in flight, the rotation point, the held READ's note and the head entry's WRITING
alone. -/
theorem State.grant_eq :
    ∃ inFlight rotation held entries, s.grant =
      { s with mp := { s.mp with inFlight, rotation }, held, posted := { s.posted with entries } } := by
  unfold State.grant
  split
  · split
    · split <;> exact ⟨_, _, _, _, rfl⟩
    · split
      · exact ⟨_, _, _, _, rfl⟩
      · rename_i r op _
        obtain ⟨held, entries, h⟩ := State.noteGrant_eq
          { s with mp := { s.mp with inFlight := some { requester := .rotor r, op }, rotation := r.next } } r
        exact ⟨_, _, held, entries, h⟩
  · exact ⟨_, _, _, _, rfl⟩

/-- The port's entry to QUIESCED changes the port, the warning, the held READ and what the bus sees. -/
theorem State.enterQuiesced_eq :
    ∃ held bus, s.enterQuiesced = { s with mp := { s.mp with port := .quiesced, warning := false }, held, bus } := by
  unfold State.enterQuiesced
  dsimp only
  split
  · rename_i h
    exact ⟨none, s.bus, by simp [← h]⟩
  · rename_i h hh
    split
    · exact ⟨_, _, rfl⟩
    · exact ⟨none, _, rfl⟩

/-- The pending quiesce changes the port, the warning, the held READ and what the bus sees. -/
theorem State.quiesceIfWarned_eq :
    ∃ port warning held bus, s.quiesceIfWarned = { s with mp := { s.mp with port, warning }, held, bus } := by
  unfold State.quiesceIfWarned
  split
  · obtain ⟨held, bus, h⟩ := s.enterQuiesced_eq
    exact ⟨_, _, held, bus, h⟩
  · exact ⟨_, _, _, _, rfl⟩

/-- The end of RELOAD's wait changes the runtime guards, the operating state and its own note. -/
theorem State.endReloadWait_eq :
    ∃ windows op guardsCleared, s.endReloadWait = { s with windows, op, guardsCleared } := by
  unfold State.endReloadWait State.clearRuntimeGuards
  split
  · dsimp only
    split <;> split <;> exact ⟨_, _, _, rfl⟩
  · exact ⟨_, _, _, rfl⟩

/-- A completion takes the operation out of flight and changes the RAM at most. -/
theorem State.completeOp_eq : ∃ mem, s.completeOp = { s with mp := { s.mp with inFlight := none }, mem } := by
  unfold State.completeOp
  dsimp only
  split <;> exact ⟨_, rfl⟩

/-- The RAM after a completion: written by the operation in flight if that is a write (R146). -/
theorem State.completeOp_mem_of_write {r : Requester} {word : Addr} {mask : Mask} {data : Word}
    (h : s.mp.inFlight = some { requester := r, op := .write word mask data }) :
    s.completeOp.mem = s.mem.writeWord word mask data := by
  simp [State.completeOp, h]

/-- The RAM after the completion of a read. -/
theorem State.completeOp_mem_of_read {r : Requester} {word : Addr}
    (h : s.mp.inFlight = some { requester := r, op := .read word }) : s.completeOp.mem = s.mem := by
  simp [State.completeOp, h]

/-- Link reset's work on one slot. -/
theorem State.linkResetSlot_eq (k : SlotId) :
    ∃ slots pool barriers counters lastEnd, s.linkResetSlot k =
      { s with slots, pool, posted := { s.posted with barriers }, ml := { s.ml with counters, lastEnd } } := by
  unfold State.linkResetSlot
  split
  case h_4 => rw [State.freeSlot_eq]; exact ⟨_, _, _, _, _, rfl⟩
  case h_5 => exact ⟨_, _, _, _, _, rfl⟩
  case h_6 => exact ⟨_, _, _, _, _, rfl⟩
  case h_7 => exact ⟨_, _, _, _, _, rfl⟩
  case h_8 => exact ⟨_, _, _, _, _, rfl⟩
  all_goals rw [State.freeSlot_eq]; exact ⟨_, _, _, _, _, rfl⟩

/-- Dropping a held READ. -/
theorem State.dropHeldRead_eq : ∃ bus, s.dropHeldRead = { s with held := none, bus } := by
  unfold State.dropHeldRead
  split
  · rename_i h; exact ⟨s.bus, by rw [← h]⟩
  · exact ⟨_, rfl⟩

/-- Link reset changes these fields alone (R171): the RAM, the ring's head, tail and fill, the sequence counter, the
Apply Engine, the Memory Port and the Window Table among others stay. -/
theorem State.linkReset_eq :
    ∃ held bus slots pool sources entries barriers counters lastEnd,
      s.linkReset =
        { s with held, bus, slots, pool, sources, posted := { s.posted with entries, barriers },
                 journal := { s.journal with commitQueue := [], ringWait := false },
                 ml := { s.ml with counters, lastEnd } } := by
  have fold : ∀ (l : List SlotId) (x : State),
      ∃ slots pool barriers counters lastEnd, l.foldl State.linkResetSlot x =
        { x with slots, pool, posted := { x.posted with barriers }, ml := { x.ml with counters, lastEnd } } := by
    intro l
    induction l with
    | nil => intro x; exact ⟨_, _, _, _, _, rfl⟩
    | cons k l ih =>
      intro x
      obtain ⟨a, b, c, d, e, h⟩ := x.linkResetSlot_eq k
      obtain ⟨a', b', c', d', e', h'⟩ := ih (x.linkResetSlot k)
      refine ⟨a', b', c', d', e', ?_⟩
      rw [List.foldl_cons, h', h]
  unfold State.linkReset
  obtain ⟨bus, h1⟩ := s.dropHeldRead_eq
  obtain ⟨a, b, c, d, e, h2⟩ := fold allSlots s.dropHeldRead
  rw [h2, h1]
  exact ⟨_, _, _, _, _, _, _, _, _, rfl⟩

/-- Link reset clears every Source Table entry and advances its epoch (R87, R96). -/
theorem State.linkReset_source (i : Source) :
    s.linkReset.source i = { SourceEntry.empty with epoch := (s.source i).epoch + 1 } := by
  have fold : ∀ (l : List SlotId) (x : State), (l.foldl State.linkResetSlot x).sources = x.sources :=
    fun l x => foldl_keeps (P := fun y => y.sources = x.sources)
      (fun y k hy => by obtain ⟨_, _, _, _, _, h⟩ := y.linkResetSlot_eq k; rw [h]; exact hy) l x rfl
  have h1 : (allSlots.foldl State.linkResetSlot s.dropHeldRead).source i = s.source i := by
    apply State.source_congr
    rw [fold]
    obtain ⟨_, h⟩ := s.dropHeldRead_eq
    rw [h]
  have h2 : s.linkReset.sources = (State.mapSources (allSlots.foldl State.linkResetSlot s.dropHeldRead)
      fun _ e => { SourceEntry.empty with epoch := e.epoch + 1 }).sources := rfl
  rw [State.source_congr h2, State.mapSources_source, h1]

/-- A cut RAM write changes the RAM and the model's count of free values alone. -/
theorem State.cutMemory_eq : ∃ mem freeCount, s.cutMemory = { s with mem, freeCount } := by
  unfold State.cutMemory
  split <;> exact ⟨_, _, rfl⟩

/-- An EEPROM cell write that may yet finish changes the EEPROM and the model's count of free values alone. -/
theorem State.mayFinishCell_eq (cell : Option (Nat × Byte)) :
    ∃ eeprom freeCount, s.mayFinishCell cell = { s with eeprom, freeCount } := by
  unfold State.mayFinishCell
  split <;> exact ⟨_, _, rfl⟩

/-- With no cell write under way nothing finishes. -/
@[simp] theorem State.mayFinishCell_none : s.mayFinishCell none = s := rfl

/-- The cell of a write that may yet finish holds the old byte or the new one; no other cell changes. -/
theorem State.mayFinishCell_eeprom (a : Nat) (b : Byte) :
    (s.mayFinishCell (some (a, b))).eeprom = s.eeprom ∨ (s.mayFinishCell (some (a, b))).eeprom = s.eeprom.set a b := by
  cases h : Config.cutCellLands s.freeCount <;> simp [State.mayFinishCell, h]

/-- A cut EEPROM cell write changes the EEPROM and the model's count of free values alone. -/
theorem State.cutCell_eq : ∃ eeprom freeCount, s.cutCell = { s with eeprom, freeCount } :=
  s.mayFinishCell_eq _

/-- Every answer that the Request Port gives by itself, or the judgement of the request (R1, R3). -/
theorem State.request_cases (src : Source) (kind : RequestKind) (addr : Addr) (judge : State → State) :
    s.request src kind addr judge = { s with bus := .waits src } ∨
    s.request src kind addr judge = s.reply src .retry ∨
    s.request src kind addr judge = s.replyFault src kind addr .unconfigured ∨
    s.request src kind addr judge = judge s := by
  unfold State.request
  split
  · exact .inl rfl
  · split
    · exact .inr (.inl rfl)
    · split
      · exact .inr (.inl rfl)
      · exact .inr (.inl rfl)
      · exact .inr (.inl rfl)
      · exact .inr (.inr (.inl rfl))
      · exact .inr (.inr (.inr rfl))

/-! ### The fields that stay -/

@[simp] theorem State.grant_pending : s.grant.pending = s.pending := by
  obtain ⟨_, _, _, _, h⟩ := s.grant_eq; rw [h]
@[simp] theorem State.grant_bus : s.grant.bus = s.bus := by
  obtain ⟨_, _, _, _, h⟩ := s.grant_eq; rw [h]
@[simp] theorem State.grant_lines : s.grant.lines = s.lines := by
  obtain ⟨_, _, _, _, h⟩ := s.grant_eq; rw [h]
@[simp] theorem State.grant_power : s.grant.power = s.power := by
  obtain ⟨_, _, _, _, h⟩ := s.grant_eq; rw [h]
@[simp] theorem State.grant_op : s.grant.op = s.op := by
  obtain ⟨_, _, _, _, h⟩ := s.grant_eq; rw [h]
@[simp] theorem State.grant_guardsCleared : s.grant.guardsCleared = s.guardsCleared := by
  obtain ⟨_, _, _, _, h⟩ := s.grant_eq; rw [h]
@[simp] theorem State.grant_windows : s.grant.windows = s.windows := by
  obtain ⟨_, _, _, _, h⟩ := s.grant_eq; rw [h]
@[simp] theorem State.grant_region : s.grant.region = s.region := by
  obtain ⟨_, _, _, _, h⟩ := s.grant_eq; rw [h]
@[simp] theorem State.grant_slots : s.grant.slots = s.slots := by
  obtain ⟨_, _, _, _, h⟩ := s.grant_eq; rw [h]
@[simp] theorem State.grant_pool : s.grant.pool = s.pool := by
  obtain ⟨_, _, _, _, h⟩ := s.grant_eq; rw [h]
@[simp] theorem State.grant_sources : s.grant.sources = s.sources := by
  obtain ⟨_, _, _, _, h⟩ := s.grant_eq; rw [h]
@[simp] theorem State.grant_time : s.grant.time = s.time := by
  obtain ⟨_, _, _, _, h⟩ := s.grant_eq; rw [h]
@[simp] theorem State.grant_journal : s.grant.journal = s.journal := by
  obtain ⟨_, _, _, _, h⟩ := s.grant_eq; rw [h]
@[simp] theorem State.grant_apply : s.grant.apply = s.apply := by
  obtain ⟨_, _, _, _, h⟩ := s.grant_eq; rw [h]
@[simp] theorem State.grant_scanner : s.grant.scanner = s.scanner := by
  obtain ⟨_, _, _, _, h⟩ := s.grant_eq; rw [h]
@[simp] theorem State.grant_cl : s.grant.cl = s.cl := by
  obtain ⟨_, _, _, _, h⟩ := s.grant_eq; rw [h]
@[simp] theorem State.grant_ml : s.grant.ml = s.ml := by
  obtain ⟨_, _, _, _, h⟩ := s.grant_eq; rw [h]
@[simp] theorem State.grant_mem : s.grant.mem = s.mem := by
  obtain ⟨_, _, _, _, h⟩ := s.grant_eq; rw [h]
@[simp] theorem State.grant_eeprom : s.grant.eeprom = s.eeprom := by
  obtain ⟨_, _, _, _, h⟩ := s.grant_eq; rw [h]
@[simp] theorem State.grant_freeCount : s.grant.freeCount = s.freeCount := by
  obtain ⟨_, _, _, _, h⟩ := s.grant_eq; rw [h]

@[simp] theorem State.quiesceIfWarned_pending : s.quiesceIfWarned.pending = s.pending := by
  obtain ⟨_, _, _, _, h⟩ := s.quiesceIfWarned_eq; rw [h]
@[simp] theorem State.quiesceIfWarned_lines : s.quiesceIfWarned.lines = s.lines := by
  obtain ⟨_, _, _, _, h⟩ := s.quiesceIfWarned_eq; rw [h]
@[simp] theorem State.quiesceIfWarned_power : s.quiesceIfWarned.power = s.power := by
  obtain ⟨_, _, _, _, h⟩ := s.quiesceIfWarned_eq; rw [h]
@[simp] theorem State.quiesceIfWarned_op : s.quiesceIfWarned.op = s.op := by
  obtain ⟨_, _, _, _, h⟩ := s.quiesceIfWarned_eq; rw [h]
@[simp] theorem State.quiesceIfWarned_guardsCleared : s.quiesceIfWarned.guardsCleared = s.guardsCleared := by
  obtain ⟨_, _, _, _, h⟩ := s.quiesceIfWarned_eq; rw [h]
@[simp] theorem State.quiesceIfWarned_windows : s.quiesceIfWarned.windows = s.windows := by
  obtain ⟨_, _, _, _, h⟩ := s.quiesceIfWarned_eq; rw [h]
@[simp] theorem State.quiesceIfWarned_region : s.quiesceIfWarned.region = s.region := by
  obtain ⟨_, _, _, _, h⟩ := s.quiesceIfWarned_eq; rw [h]
@[simp] theorem State.quiesceIfWarned_slots : s.quiesceIfWarned.slots = s.slots := by
  obtain ⟨_, _, _, _, h⟩ := s.quiesceIfWarned_eq; rw [h]
@[simp] theorem State.quiesceIfWarned_pool : s.quiesceIfWarned.pool = s.pool := by
  obtain ⟨_, _, _, _, h⟩ := s.quiesceIfWarned_eq; rw [h]
@[simp] theorem State.quiesceIfWarned_sources : s.quiesceIfWarned.sources = s.sources := by
  obtain ⟨_, _, _, _, h⟩ := s.quiesceIfWarned_eq; rw [h]
@[simp] theorem State.quiesceIfWarned_time : s.quiesceIfWarned.time = s.time := by
  obtain ⟨_, _, _, _, h⟩ := s.quiesceIfWarned_eq; rw [h]
@[simp] theorem State.quiesceIfWarned_posted : s.quiesceIfWarned.posted = s.posted := by
  obtain ⟨_, _, _, _, h⟩ := s.quiesceIfWarned_eq; rw [h]
@[simp] theorem State.quiesceIfWarned_journal : s.quiesceIfWarned.journal = s.journal := by
  obtain ⟨_, _, _, _, h⟩ := s.quiesceIfWarned_eq; rw [h]
@[simp] theorem State.quiesceIfWarned_apply : s.quiesceIfWarned.apply = s.apply := by
  obtain ⟨_, _, _, _, h⟩ := s.quiesceIfWarned_eq; rw [h]
@[simp] theorem State.quiesceIfWarned_scanner : s.quiesceIfWarned.scanner = s.scanner := by
  obtain ⟨_, _, _, _, h⟩ := s.quiesceIfWarned_eq; rw [h]
@[simp] theorem State.quiesceIfWarned_cl : s.quiesceIfWarned.cl = s.cl := by
  obtain ⟨_, _, _, _, h⟩ := s.quiesceIfWarned_eq; rw [h]
@[simp] theorem State.quiesceIfWarned_ml : s.quiesceIfWarned.ml = s.ml := by
  obtain ⟨_, _, _, _, h⟩ := s.quiesceIfWarned_eq; rw [h]
@[simp] theorem State.quiesceIfWarned_mem : s.quiesceIfWarned.mem = s.mem := by
  obtain ⟨_, _, _, _, h⟩ := s.quiesceIfWarned_eq; rw [h]
@[simp] theorem State.quiesceIfWarned_eeprom : s.quiesceIfWarned.eeprom = s.eeprom := by
  obtain ⟨_, _, _, _, h⟩ := s.quiesceIfWarned_eq; rw [h]
@[simp] theorem State.quiesceIfWarned_freeCount : s.quiesceIfWarned.freeCount = s.freeCount := by
  obtain ⟨_, _, _, _, h⟩ := s.quiesceIfWarned_eq; rw [h]

@[simp] theorem State.noteRingWait_pending : s.noteRingWait.pending = s.pending := by
  obtain ⟨_, _, _, h⟩ := s.noteRingWait_eq; rw [h]
@[simp] theorem State.noteRingWait_bus : s.noteRingWait.bus = s.bus := by
  obtain ⟨_, _, _, h⟩ := s.noteRingWait_eq; rw [h]
@[simp] theorem State.noteRingWait_lines : s.noteRingWait.lines = s.lines := by
  obtain ⟨_, _, _, h⟩ := s.noteRingWait_eq; rw [h]
@[simp] theorem State.noteRingWait_power : s.noteRingWait.power = s.power := by
  obtain ⟨_, _, _, h⟩ := s.noteRingWait_eq; rw [h]
@[simp] theorem State.noteRingWait_op : s.noteRingWait.op = s.op := by
  obtain ⟨_, _, _, h⟩ := s.noteRingWait_eq; rw [h]
@[simp] theorem State.noteRingWait_guardsCleared : s.noteRingWait.guardsCleared = s.guardsCleared := by
  obtain ⟨_, _, _, h⟩ := s.noteRingWait_eq; rw [h]
@[simp] theorem State.noteRingWait_held : s.noteRingWait.held = s.held := by
  obtain ⟨_, _, _, h⟩ := s.noteRingWait_eq; rw [h]
@[simp] theorem State.noteRingWait_windows : s.noteRingWait.windows = s.windows := by
  obtain ⟨_, _, _, h⟩ := s.noteRingWait_eq; rw [h]
@[simp] theorem State.noteRingWait_region : s.noteRingWait.region = s.region := by
  obtain ⟨_, _, _, h⟩ := s.noteRingWait_eq; rw [h]
@[simp] theorem State.noteRingWait_slots : s.noteRingWait.slots = s.slots := by
  obtain ⟨_, _, _, h⟩ := s.noteRingWait_eq; rw [h]
@[simp] theorem State.noteRingWait_pool : s.noteRingWait.pool = s.pool := by
  obtain ⟨_, _, _, h⟩ := s.noteRingWait_eq; rw [h]
@[simp] theorem State.noteRingWait_sources : s.noteRingWait.sources = s.sources := by
  obtain ⟨_, _, _, h⟩ := s.noteRingWait_eq; rw [h]
@[simp] theorem State.noteRingWait_time : s.noteRingWait.time = s.time := by
  obtain ⟨_, _, _, h⟩ := s.noteRingWait_eq; rw [h]
@[simp] theorem State.noteRingWait_posted : s.noteRingWait.posted = s.posted := by
  obtain ⟨_, _, _, h⟩ := s.noteRingWait_eq; rw [h]
@[simp] theorem State.noteRingWait_apply : s.noteRingWait.apply = s.apply := by
  obtain ⟨_, _, _, h⟩ := s.noteRingWait_eq; rw [h]
@[simp] theorem State.noteRingWait_mp : s.noteRingWait.mp = s.mp := by
  obtain ⟨_, _, _, h⟩ := s.noteRingWait_eq; rw [h]
@[simp] theorem State.noteRingWait_scanner : s.noteRingWait.scanner = s.scanner := by
  obtain ⟨_, _, _, h⟩ := s.noteRingWait_eq; rw [h]
@[simp] theorem State.noteRingWait_cl : s.noteRingWait.cl = s.cl := by
  obtain ⟨_, _, _, h⟩ := s.noteRingWait_eq; rw [h]
@[simp] theorem State.noteRingWait_mem : s.noteRingWait.mem = s.mem := by
  obtain ⟨_, _, _, h⟩ := s.noteRingWait_eq; rw [h]
@[simp] theorem State.noteRingWait_eeprom : s.noteRingWait.eeprom = s.eeprom := by
  obtain ⟨_, _, _, h⟩ := s.noteRingWait_eq; rw [h]
@[simp] theorem State.noteRingWait_freeCount : s.noteRingWait.freeCount = s.freeCount := by
  obtain ⟨_, _, _, h⟩ := s.noteRingWait_eq; rw [h]

@[simp] theorem State.endReloadWait_pending : s.endReloadWait.pending = s.pending := by
  obtain ⟨_, _, _, h⟩ := s.endReloadWait_eq; rw [h]
@[simp] theorem State.endReloadWait_bus : s.endReloadWait.bus = s.bus := by
  obtain ⟨_, _, _, h⟩ := s.endReloadWait_eq; rw [h]
@[simp] theorem State.endReloadWait_lines : s.endReloadWait.lines = s.lines := by
  obtain ⟨_, _, _, h⟩ := s.endReloadWait_eq; rw [h]
@[simp] theorem State.endReloadWait_power : s.endReloadWait.power = s.power := by
  obtain ⟨_, _, _, h⟩ := s.endReloadWait_eq; rw [h]
@[simp] theorem State.endReloadWait_held : s.endReloadWait.held = s.held := by
  obtain ⟨_, _, _, h⟩ := s.endReloadWait_eq; rw [h]
@[simp] theorem State.endReloadWait_region : s.endReloadWait.region = s.region := by
  obtain ⟨_, _, _, h⟩ := s.endReloadWait_eq; rw [h]
@[simp] theorem State.endReloadWait_slots : s.endReloadWait.slots = s.slots := by
  obtain ⟨_, _, _, h⟩ := s.endReloadWait_eq; rw [h]
@[simp] theorem State.endReloadWait_pool : s.endReloadWait.pool = s.pool := by
  obtain ⟨_, _, _, h⟩ := s.endReloadWait_eq; rw [h]
@[simp] theorem State.endReloadWait_sources : s.endReloadWait.sources = s.sources := by
  obtain ⟨_, _, _, h⟩ := s.endReloadWait_eq; rw [h]
@[simp] theorem State.endReloadWait_time : s.endReloadWait.time = s.time := by
  obtain ⟨_, _, _, h⟩ := s.endReloadWait_eq; rw [h]
@[simp] theorem State.endReloadWait_posted : s.endReloadWait.posted = s.posted := by
  obtain ⟨_, _, _, h⟩ := s.endReloadWait_eq; rw [h]
@[simp] theorem State.endReloadWait_journal : s.endReloadWait.journal = s.journal := by
  obtain ⟨_, _, _, h⟩ := s.endReloadWait_eq; rw [h]
@[simp] theorem State.endReloadWait_apply : s.endReloadWait.apply = s.apply := by
  obtain ⟨_, _, _, h⟩ := s.endReloadWait_eq; rw [h]
@[simp] theorem State.endReloadWait_mp : s.endReloadWait.mp = s.mp := by
  obtain ⟨_, _, _, h⟩ := s.endReloadWait_eq; rw [h]
@[simp] theorem State.endReloadWait_scanner : s.endReloadWait.scanner = s.scanner := by
  obtain ⟨_, _, _, h⟩ := s.endReloadWait_eq; rw [h]
@[simp] theorem State.endReloadWait_cl : s.endReloadWait.cl = s.cl := by
  obtain ⟨_, _, _, h⟩ := s.endReloadWait_eq; rw [h]
@[simp] theorem State.endReloadWait_ml : s.endReloadWait.ml = s.ml := by
  obtain ⟨_, _, _, h⟩ := s.endReloadWait_eq; rw [h]
@[simp] theorem State.endReloadWait_mem : s.endReloadWait.mem = s.mem := by
  obtain ⟨_, _, _, h⟩ := s.endReloadWait_eq; rw [h]
@[simp] theorem State.endReloadWait_eeprom : s.endReloadWait.eeprom = s.eeprom := by
  obtain ⟨_, _, _, h⟩ := s.endReloadWait_eq; rw [h]
@[simp] theorem State.endReloadWait_freeCount : s.endReloadWait.freeCount = s.freeCount := by
  obtain ⟨_, _, _, h⟩ := s.endReloadWait_eq; rw [h]

@[simp] theorem State.completeOp_pending : s.completeOp.pending = s.pending := by
  obtain ⟨_, h⟩ := s.completeOp_eq; rw [h]
@[simp] theorem State.completeOp_bus : s.completeOp.bus = s.bus := by
  obtain ⟨_, h⟩ := s.completeOp_eq; rw [h]
@[simp] theorem State.completeOp_lines : s.completeOp.lines = s.lines := by
  obtain ⟨_, h⟩ := s.completeOp_eq; rw [h]
@[simp] theorem State.completeOp_power : s.completeOp.power = s.power := by
  obtain ⟨_, h⟩ := s.completeOp_eq; rw [h]
@[simp] theorem State.completeOp_op : s.completeOp.op = s.op := by
  obtain ⟨_, h⟩ := s.completeOp_eq; rw [h]
@[simp] theorem State.completeOp_guardsCleared : s.completeOp.guardsCleared = s.guardsCleared := by
  obtain ⟨_, h⟩ := s.completeOp_eq; rw [h]
@[simp] theorem State.completeOp_held : s.completeOp.held = s.held := by
  obtain ⟨_, h⟩ := s.completeOp_eq; rw [h]
@[simp] theorem State.completeOp_windows : s.completeOp.windows = s.windows := by
  obtain ⟨_, h⟩ := s.completeOp_eq; rw [h]
@[simp] theorem State.completeOp_region : s.completeOp.region = s.region := by
  obtain ⟨_, h⟩ := s.completeOp_eq; rw [h]
@[simp] theorem State.completeOp_slots : s.completeOp.slots = s.slots := by
  obtain ⟨_, h⟩ := s.completeOp_eq; rw [h]
@[simp] theorem State.completeOp_pool : s.completeOp.pool = s.pool := by
  obtain ⟨_, h⟩ := s.completeOp_eq; rw [h]
@[simp] theorem State.completeOp_sources : s.completeOp.sources = s.sources := by
  obtain ⟨_, h⟩ := s.completeOp_eq; rw [h]
@[simp] theorem State.completeOp_time : s.completeOp.time = s.time := by
  obtain ⟨_, h⟩ := s.completeOp_eq; rw [h]
@[simp] theorem State.completeOp_posted : s.completeOp.posted = s.posted := by
  obtain ⟨_, h⟩ := s.completeOp_eq; rw [h]
@[simp] theorem State.completeOp_journal : s.completeOp.journal = s.journal := by
  obtain ⟨_, h⟩ := s.completeOp_eq; rw [h]
@[simp] theorem State.completeOp_apply : s.completeOp.apply = s.apply := by
  obtain ⟨_, h⟩ := s.completeOp_eq; rw [h]
@[simp] theorem State.completeOp_scanner : s.completeOp.scanner = s.scanner := by
  obtain ⟨_, h⟩ := s.completeOp_eq; rw [h]
@[simp] theorem State.completeOp_cl : s.completeOp.cl = s.cl := by
  obtain ⟨_, h⟩ := s.completeOp_eq; rw [h]
@[simp] theorem State.completeOp_ml : s.completeOp.ml = s.ml := by
  obtain ⟨_, h⟩ := s.completeOp_eq; rw [h]
@[simp] theorem State.completeOp_eeprom : s.completeOp.eeprom = s.eeprom := by
  obtain ⟨_, h⟩ := s.completeOp_eq; rw [h]
@[simp] theorem State.completeOp_freeCount : s.completeOp.freeCount = s.freeCount := by
  obtain ⟨_, h⟩ := s.completeOp_eq; rw [h]

@[simp] theorem State.takeApplyHead_pending : s.takeApplyHead.pending = s.pending := by
  obtain ⟨_, _, h⟩ := s.takeApplyHead_eq; rw [h]
@[simp] theorem State.takeApplyHead_bus : s.takeApplyHead.bus = s.bus := by
  obtain ⟨_, _, h⟩ := s.takeApplyHead_eq; rw [h]
@[simp] theorem State.takeApplyHead_lines : s.takeApplyHead.lines = s.lines := by
  obtain ⟨_, _, h⟩ := s.takeApplyHead_eq; rw [h]
@[simp] theorem State.takeApplyHead_power : s.takeApplyHead.power = s.power := by
  obtain ⟨_, _, h⟩ := s.takeApplyHead_eq; rw [h]
@[simp] theorem State.takeApplyHead_op : s.takeApplyHead.op = s.op := by
  obtain ⟨_, _, h⟩ := s.takeApplyHead_eq; rw [h]
@[simp] theorem State.takeApplyHead_guardsCleared : s.takeApplyHead.guardsCleared = s.guardsCleared := by
  obtain ⟨_, _, h⟩ := s.takeApplyHead_eq; rw [h]
@[simp] theorem State.takeApplyHead_held : s.takeApplyHead.held = s.held := by
  obtain ⟨_, _, h⟩ := s.takeApplyHead_eq; rw [h]
@[simp] theorem State.takeApplyHead_windows : s.takeApplyHead.windows = s.windows := by
  obtain ⟨_, _, h⟩ := s.takeApplyHead_eq; rw [h]
@[simp] theorem State.takeApplyHead_region : s.takeApplyHead.region = s.region := by
  obtain ⟨_, _, h⟩ := s.takeApplyHead_eq; rw [h]
@[simp] theorem State.takeApplyHead_pool : s.takeApplyHead.pool = s.pool := by
  obtain ⟨_, _, h⟩ := s.takeApplyHead_eq; rw [h]
@[simp] theorem State.takeApplyHead_sources : s.takeApplyHead.sources = s.sources := by
  obtain ⟨_, _, h⟩ := s.takeApplyHead_eq; rw [h]
@[simp] theorem State.takeApplyHead_time : s.takeApplyHead.time = s.time := by
  obtain ⟨_, _, h⟩ := s.takeApplyHead_eq; rw [h]
@[simp] theorem State.takeApplyHead_posted : s.takeApplyHead.posted = s.posted := by
  obtain ⟨_, _, h⟩ := s.takeApplyHead_eq; rw [h]
@[simp] theorem State.takeApplyHead_journal : s.takeApplyHead.journal = s.journal := by
  obtain ⟨_, _, h⟩ := s.takeApplyHead_eq; rw [h]
@[simp] theorem State.takeApplyHead_mp : s.takeApplyHead.mp = s.mp := by
  obtain ⟨_, _, h⟩ := s.takeApplyHead_eq; rw [h]
@[simp] theorem State.takeApplyHead_scanner : s.takeApplyHead.scanner = s.scanner := by
  obtain ⟨_, _, h⟩ := s.takeApplyHead_eq; rw [h]
@[simp] theorem State.takeApplyHead_cl : s.takeApplyHead.cl = s.cl := by
  obtain ⟨_, _, h⟩ := s.takeApplyHead_eq; rw [h]
@[simp] theorem State.takeApplyHead_ml : s.takeApplyHead.ml = s.ml := by
  obtain ⟨_, _, h⟩ := s.takeApplyHead_eq; rw [h]
@[simp] theorem State.takeApplyHead_mem : s.takeApplyHead.mem = s.mem := by
  obtain ⟨_, _, h⟩ := s.takeApplyHead_eq; rw [h]
@[simp] theorem State.takeApplyHead_eeprom : s.takeApplyHead.eeprom = s.eeprom := by
  obtain ⟨_, _, h⟩ := s.takeApplyHead_eq; rw [h]
@[simp] theorem State.takeApplyHead_freeCount : s.takeApplyHead.freeCount = s.freeCount := by
  obtain ⟨_, _, h⟩ := s.takeApplyHead_eq; rw [h]

@[simp] theorem State.cutMemory_pending : s.cutMemory.pending = s.pending := by
  obtain ⟨_, _, h⟩ := s.cutMemory_eq; rw [h]
@[simp] theorem State.cutMemory_bus : s.cutMemory.bus = s.bus := by
  obtain ⟨_, _, h⟩ := s.cutMemory_eq; rw [h]
@[simp] theorem State.cutMemory_lines : s.cutMemory.lines = s.lines := by
  obtain ⟨_, _, h⟩ := s.cutMemory_eq; rw [h]
@[simp] theorem State.cutMemory_power : s.cutMemory.power = s.power := by
  obtain ⟨_, _, h⟩ := s.cutMemory_eq; rw [h]
@[simp] theorem State.cutMemory_op : s.cutMemory.op = s.op := by
  obtain ⟨_, _, h⟩ := s.cutMemory_eq; rw [h]
@[simp] theorem State.cutMemory_guardsCleared : s.cutMemory.guardsCleared = s.guardsCleared := by
  obtain ⟨_, _, h⟩ := s.cutMemory_eq; rw [h]
@[simp] theorem State.cutMemory_held : s.cutMemory.held = s.held := by
  obtain ⟨_, _, h⟩ := s.cutMemory_eq; rw [h]
@[simp] theorem State.cutMemory_windows : s.cutMemory.windows = s.windows := by
  obtain ⟨_, _, h⟩ := s.cutMemory_eq; rw [h]
@[simp] theorem State.cutMemory_region : s.cutMemory.region = s.region := by
  obtain ⟨_, _, h⟩ := s.cutMemory_eq; rw [h]
@[simp] theorem State.cutMemory_slots : s.cutMemory.slots = s.slots := by
  obtain ⟨_, _, h⟩ := s.cutMemory_eq; rw [h]
@[simp] theorem State.cutMemory_pool : s.cutMemory.pool = s.pool := by
  obtain ⟨_, _, h⟩ := s.cutMemory_eq; rw [h]
@[simp] theorem State.cutMemory_sources : s.cutMemory.sources = s.sources := by
  obtain ⟨_, _, h⟩ := s.cutMemory_eq; rw [h]
@[simp] theorem State.cutMemory_time : s.cutMemory.time = s.time := by
  obtain ⟨_, _, h⟩ := s.cutMemory_eq; rw [h]
@[simp] theorem State.cutMemory_posted : s.cutMemory.posted = s.posted := by
  obtain ⟨_, _, h⟩ := s.cutMemory_eq; rw [h]
@[simp] theorem State.cutMemory_journal : s.cutMemory.journal = s.journal := by
  obtain ⟨_, _, h⟩ := s.cutMemory_eq; rw [h]
@[simp] theorem State.cutMemory_apply : s.cutMemory.apply = s.apply := by
  obtain ⟨_, _, h⟩ := s.cutMemory_eq; rw [h]
@[simp] theorem State.cutMemory_mp : s.cutMemory.mp = s.mp := by
  obtain ⟨_, _, h⟩ := s.cutMemory_eq; rw [h]
@[simp] theorem State.cutMemory_scanner : s.cutMemory.scanner = s.scanner := by
  obtain ⟨_, _, h⟩ := s.cutMemory_eq; rw [h]
@[simp] theorem State.cutMemory_cl : s.cutMemory.cl = s.cl := by
  obtain ⟨_, _, h⟩ := s.cutMemory_eq; rw [h]
@[simp] theorem State.cutMemory_ml : s.cutMemory.ml = s.ml := by
  obtain ⟨_, _, h⟩ := s.cutMemory_eq; rw [h]
@[simp] theorem State.cutMemory_eeprom : s.cutMemory.eeprom = s.eeprom := by
  obtain ⟨_, _, h⟩ := s.cutMemory_eq; rw [h]

@[simp] theorem State.cutCell_pending : s.cutCell.pending = s.pending := by
  obtain ⟨_, _, h⟩ := s.cutCell_eq; rw [h]
@[simp] theorem State.cutCell_bus : s.cutCell.bus = s.bus := by
  obtain ⟨_, _, h⟩ := s.cutCell_eq; rw [h]
@[simp] theorem State.cutCell_lines : s.cutCell.lines = s.lines := by
  obtain ⟨_, _, h⟩ := s.cutCell_eq; rw [h]
@[simp] theorem State.cutCell_power : s.cutCell.power = s.power := by
  obtain ⟨_, _, h⟩ := s.cutCell_eq; rw [h]
@[simp] theorem State.cutCell_op : s.cutCell.op = s.op := by
  obtain ⟨_, _, h⟩ := s.cutCell_eq; rw [h]
@[simp] theorem State.cutCell_guardsCleared : s.cutCell.guardsCleared = s.guardsCleared := by
  obtain ⟨_, _, h⟩ := s.cutCell_eq; rw [h]
@[simp] theorem State.cutCell_held : s.cutCell.held = s.held := by
  obtain ⟨_, _, h⟩ := s.cutCell_eq; rw [h]
@[simp] theorem State.cutCell_windows : s.cutCell.windows = s.windows := by
  obtain ⟨_, _, h⟩ := s.cutCell_eq; rw [h]
@[simp] theorem State.cutCell_region : s.cutCell.region = s.region := by
  obtain ⟨_, _, h⟩ := s.cutCell_eq; rw [h]
@[simp] theorem State.cutCell_slots : s.cutCell.slots = s.slots := by
  obtain ⟨_, _, h⟩ := s.cutCell_eq; rw [h]
@[simp] theorem State.cutCell_pool : s.cutCell.pool = s.pool := by
  obtain ⟨_, _, h⟩ := s.cutCell_eq; rw [h]
@[simp] theorem State.cutCell_sources : s.cutCell.sources = s.sources := by
  obtain ⟨_, _, h⟩ := s.cutCell_eq; rw [h]
@[simp] theorem State.cutCell_time : s.cutCell.time = s.time := by
  obtain ⟨_, _, h⟩ := s.cutCell_eq; rw [h]
@[simp] theorem State.cutCell_posted : s.cutCell.posted = s.posted := by
  obtain ⟨_, _, h⟩ := s.cutCell_eq; rw [h]
@[simp] theorem State.cutCell_journal : s.cutCell.journal = s.journal := by
  obtain ⟨_, _, h⟩ := s.cutCell_eq; rw [h]
@[simp] theorem State.cutCell_apply : s.cutCell.apply = s.apply := by
  obtain ⟨_, _, h⟩ := s.cutCell_eq; rw [h]
@[simp] theorem State.cutCell_mp : s.cutCell.mp = s.mp := by
  obtain ⟨_, _, h⟩ := s.cutCell_eq; rw [h]
@[simp] theorem State.cutCell_scanner : s.cutCell.scanner = s.scanner := by
  obtain ⟨_, _, h⟩ := s.cutCell_eq; rw [h]
@[simp] theorem State.cutCell_cl : s.cutCell.cl = s.cl := by
  obtain ⟨_, _, h⟩ := s.cutCell_eq; rw [h]
@[simp] theorem State.cutCell_ml : s.cutCell.ml = s.ml := by
  obtain ⟨_, _, h⟩ := s.cutCell_eq; rw [h]
@[simp] theorem State.cutCell_mem : s.cutCell.mem = s.mem := by
  obtain ⟨_, _, h⟩ := s.cutCell_eq; rw [h]

@[simp] theorem State.linkReset_pending : s.linkReset.pending = s.pending := by
  obtain ⟨_, _, _, _, _, _, _, _, _, h⟩ := s.linkReset_eq; rw [h]
@[simp] theorem State.linkReset_lines : s.linkReset.lines = s.lines := by
  obtain ⟨_, _, _, _, _, _, _, _, _, h⟩ := s.linkReset_eq; rw [h]
@[simp] theorem State.linkReset_power : s.linkReset.power = s.power := by
  obtain ⟨_, _, _, _, _, _, _, _, _, h⟩ := s.linkReset_eq; rw [h]
@[simp] theorem State.linkReset_op : s.linkReset.op = s.op := by
  obtain ⟨_, _, _, _, _, _, _, _, _, h⟩ := s.linkReset_eq; rw [h]
@[simp] theorem State.linkReset_guardsCleared : s.linkReset.guardsCleared = s.guardsCleared := by
  obtain ⟨_, _, _, _, _, _, _, _, _, h⟩ := s.linkReset_eq; rw [h]
@[simp] theorem State.linkReset_windows : s.linkReset.windows = s.windows := by
  obtain ⟨_, _, _, _, _, _, _, _, _, h⟩ := s.linkReset_eq; rw [h]
@[simp] theorem State.linkReset_region : s.linkReset.region = s.region := by
  obtain ⟨_, _, _, _, _, _, _, _, _, h⟩ := s.linkReset_eq; rw [h]
@[simp] theorem State.linkReset_time : s.linkReset.time = s.time := by
  obtain ⟨_, _, _, _, _, _, _, _, _, h⟩ := s.linkReset_eq; rw [h]
@[simp] theorem State.linkReset_apply : s.linkReset.apply = s.apply := by
  obtain ⟨_, _, _, _, _, _, _, _, _, h⟩ := s.linkReset_eq; rw [h]
@[simp] theorem State.linkReset_mp : s.linkReset.mp = s.mp := by
  obtain ⟨_, _, _, _, _, _, _, _, _, h⟩ := s.linkReset_eq; rw [h]
@[simp] theorem State.linkReset_scanner : s.linkReset.scanner = s.scanner := by
  obtain ⟨_, _, _, _, _, _, _, _, _, h⟩ := s.linkReset_eq; rw [h]
@[simp] theorem State.linkReset_cl : s.linkReset.cl = s.cl := by
  obtain ⟨_, _, _, _, _, _, _, _, _, h⟩ := s.linkReset_eq; rw [h]
@[simp] theorem State.linkReset_mem : s.linkReset.mem = s.mem := by
  obtain ⟨_, _, _, _, _, _, _, _, _, h⟩ := s.linkReset_eq; rw [h]
@[simp] theorem State.linkReset_eeprom : s.linkReset.eeprom = s.eeprom := by
  obtain ⟨_, _, _, _, _, _, _, _, _, h⟩ := s.linkReset_eq; rw [h]
@[simp] theorem State.linkReset_freeCount : s.linkReset.freeCount = s.freeCount := by
  obtain ⟨_, _, _, _, _, _, _, _, _, h⟩ := s.linkReset_eq; rw [h]

@[simp] theorem State.abortGroup_pending (k : SlotId) (cause : AbortCause) : (s.abortGroup k cause).pending = s.pending := by
  obtain ⟨_, _, _, _, _, h⟩ := s.abortGroup_eq k cause; rw [h]
@[simp] theorem State.abortGroup_bus (k : SlotId) (cause : AbortCause) : (s.abortGroup k cause).bus = s.bus := by
  obtain ⟨_, _, _, _, _, h⟩ := s.abortGroup_eq k cause; rw [h]
@[simp] theorem State.abortGroup_lines (k : SlotId) (cause : AbortCause) : (s.abortGroup k cause).lines = s.lines := by
  obtain ⟨_, _, _, _, _, h⟩ := s.abortGroup_eq k cause; rw [h]
@[simp] theorem State.abortGroup_power (k : SlotId) (cause : AbortCause) : (s.abortGroup k cause).power = s.power := by
  obtain ⟨_, _, _, _, _, h⟩ := s.abortGroup_eq k cause; rw [h]
@[simp] theorem State.abortGroup_op (k : SlotId) (cause : AbortCause) : (s.abortGroup k cause).op = s.op := by
  obtain ⟨_, _, _, _, _, h⟩ := s.abortGroup_eq k cause; rw [h]
@[simp] theorem State.abortGroup_guardsCleared (k : SlotId) (cause : AbortCause) : (s.abortGroup k cause).guardsCleared = s.guardsCleared := by
  obtain ⟨_, _, _, _, _, h⟩ := s.abortGroup_eq k cause; rw [h]
@[simp] theorem State.abortGroup_held (k : SlotId) (cause : AbortCause) : (s.abortGroup k cause).held = s.held := by
  obtain ⟨_, _, _, _, _, h⟩ := s.abortGroup_eq k cause; rw [h]
@[simp] theorem State.abortGroup_windows (k : SlotId) (cause : AbortCause) : (s.abortGroup k cause).windows = s.windows := by
  obtain ⟨_, _, _, _, _, h⟩ := s.abortGroup_eq k cause; rw [h]
@[simp] theorem State.abortGroup_region (k : SlotId) (cause : AbortCause) : (s.abortGroup k cause).region = s.region := by
  obtain ⟨_, _, _, _, _, h⟩ := s.abortGroup_eq k cause; rw [h]
@[simp] theorem State.abortGroup_sources (k : SlotId) (cause : AbortCause) : (s.abortGroup k cause).sources = s.sources := by
  obtain ⟨_, _, _, _, _, h⟩ := s.abortGroup_eq k cause; rw [h]
@[simp] theorem State.abortGroup_time (k : SlotId) (cause : AbortCause) : (s.abortGroup k cause).time = s.time := by
  obtain ⟨_, _, _, _, _, h⟩ := s.abortGroup_eq k cause; rw [h]
@[simp] theorem State.abortGroup_posted (k : SlotId) (cause : AbortCause) : (s.abortGroup k cause).posted = s.posted := by
  obtain ⟨_, _, _, _, _, h⟩ := s.abortGroup_eq k cause; rw [h]
@[simp] theorem State.abortGroup_journal (k : SlotId) (cause : AbortCause) : (s.abortGroup k cause).journal = s.journal := by
  obtain ⟨_, _, _, _, _, h⟩ := s.abortGroup_eq k cause; rw [h]
@[simp] theorem State.abortGroup_apply (k : SlotId) (cause : AbortCause) : (s.abortGroup k cause).apply = s.apply := by
  obtain ⟨_, _, _, _, _, h⟩ := s.abortGroup_eq k cause; rw [h]
@[simp] theorem State.abortGroup_mp (k : SlotId) (cause : AbortCause) : (s.abortGroup k cause).mp = s.mp := by
  obtain ⟨_, _, _, _, _, h⟩ := s.abortGroup_eq k cause; rw [h]
@[simp] theorem State.abortGroup_scanner (k : SlotId) (cause : AbortCause) : (s.abortGroup k cause).scanner = s.scanner := by
  obtain ⟨_, _, _, _, _, h⟩ := s.abortGroup_eq k cause; rw [h]
@[simp] theorem State.abortGroup_cl (k : SlotId) (cause : AbortCause) : (s.abortGroup k cause).cl = s.cl := by
  obtain ⟨_, _, _, _, _, h⟩ := s.abortGroup_eq k cause; rw [h]
@[simp] theorem State.abortGroup_mem (k : SlotId) (cause : AbortCause) : (s.abortGroup k cause).mem = s.mem := by
  obtain ⟨_, _, _, _, _, h⟩ := s.abortGroup_eq k cause; rw [h]
@[simp] theorem State.abortGroup_eeprom (k : SlotId) (cause : AbortCause) : (s.abortGroup k cause).eeprom = s.eeprom := by
  obtain ⟨_, _, _, _, _, h⟩ := s.abortGroup_eq k cause; rw [h]
@[simp] theorem State.abortGroup_freeCount (k : SlotId) (cause : AbortCause) : (s.abortGroup k cause).freeCount = s.freeCount := by
  obtain ⟨_, _, _, _, _, h⟩ := s.abortGroup_eq k cause; rw [h]

@[simp] theorem State.stage_pending (k : SlotId) (word : Addr) (mask : Mask) (data : Word) : (s.stage k word mask data).pending = s.pending := by
  obtain ⟨_, h⟩ := s.stage_eq k word mask data; rw [h]
@[simp] theorem State.stage_bus (k : SlotId) (word : Addr) (mask : Mask) (data : Word) : (s.stage k word mask data).bus = s.bus := by
  obtain ⟨_, h⟩ := s.stage_eq k word mask data; rw [h]
@[simp] theorem State.stage_lines (k : SlotId) (word : Addr) (mask : Mask) (data : Word) : (s.stage k word mask data).lines = s.lines := by
  obtain ⟨_, h⟩ := s.stage_eq k word mask data; rw [h]
@[simp] theorem State.stage_power (k : SlotId) (word : Addr) (mask : Mask) (data : Word) : (s.stage k word mask data).power = s.power := by
  obtain ⟨_, h⟩ := s.stage_eq k word mask data; rw [h]
@[simp] theorem State.stage_op (k : SlotId) (word : Addr) (mask : Mask) (data : Word) : (s.stage k word mask data).op = s.op := by
  obtain ⟨_, h⟩ := s.stage_eq k word mask data; rw [h]
@[simp] theorem State.stage_guardsCleared (k : SlotId) (word : Addr) (mask : Mask) (data : Word) : (s.stage k word mask data).guardsCleared = s.guardsCleared := by
  obtain ⟨_, h⟩ := s.stage_eq k word mask data; rw [h]
@[simp] theorem State.stage_held (k : SlotId) (word : Addr) (mask : Mask) (data : Word) : (s.stage k word mask data).held = s.held := by
  obtain ⟨_, h⟩ := s.stage_eq k word mask data; rw [h]
@[simp] theorem State.stage_windows (k : SlotId) (word : Addr) (mask : Mask) (data : Word) : (s.stage k word mask data).windows = s.windows := by
  obtain ⟨_, h⟩ := s.stage_eq k word mask data; rw [h]
@[simp] theorem State.stage_region (k : SlotId) (word : Addr) (mask : Mask) (data : Word) : (s.stage k word mask data).region = s.region := by
  obtain ⟨_, h⟩ := s.stage_eq k word mask data; rw [h]
@[simp] theorem State.stage_slots (k : SlotId) (word : Addr) (mask : Mask) (data : Word) : (s.stage k word mask data).slots = s.slots := by
  obtain ⟨_, h⟩ := s.stage_eq k word mask data; rw [h]
@[simp] theorem State.stage_sources (k : SlotId) (word : Addr) (mask : Mask) (data : Word) : (s.stage k word mask data).sources = s.sources := by
  obtain ⟨_, h⟩ := s.stage_eq k word mask data; rw [h]
@[simp] theorem State.stage_time (k : SlotId) (word : Addr) (mask : Mask) (data : Word) : (s.stage k word mask data).time = s.time := by
  obtain ⟨_, h⟩ := s.stage_eq k word mask data; rw [h]
@[simp] theorem State.stage_posted (k : SlotId) (word : Addr) (mask : Mask) (data : Word) : (s.stage k word mask data).posted = s.posted := by
  obtain ⟨_, h⟩ := s.stage_eq k word mask data; rw [h]
@[simp] theorem State.stage_journal (k : SlotId) (word : Addr) (mask : Mask) (data : Word) : (s.stage k word mask data).journal = s.journal := by
  obtain ⟨_, h⟩ := s.stage_eq k word mask data; rw [h]
@[simp] theorem State.stage_apply (k : SlotId) (word : Addr) (mask : Mask) (data : Word) : (s.stage k word mask data).apply = s.apply := by
  obtain ⟨_, h⟩ := s.stage_eq k word mask data; rw [h]
@[simp] theorem State.stage_mp (k : SlotId) (word : Addr) (mask : Mask) (data : Word) : (s.stage k word mask data).mp = s.mp := by
  obtain ⟨_, h⟩ := s.stage_eq k word mask data; rw [h]
@[simp] theorem State.stage_scanner (k : SlotId) (word : Addr) (mask : Mask) (data : Word) : (s.stage k word mask data).scanner = s.scanner := by
  obtain ⟨_, h⟩ := s.stage_eq k word mask data; rw [h]
@[simp] theorem State.stage_cl (k : SlotId) (word : Addr) (mask : Mask) (data : Word) : (s.stage k word mask data).cl = s.cl := by
  obtain ⟨_, h⟩ := s.stage_eq k word mask data; rw [h]
@[simp] theorem State.stage_ml (k : SlotId) (word : Addr) (mask : Mask) (data : Word) : (s.stage k word mask data).ml = s.ml := by
  obtain ⟨_, h⟩ := s.stage_eq k word mask data; rw [h]
@[simp] theorem State.stage_mem (k : SlotId) (word : Addr) (mask : Mask) (data : Word) : (s.stage k word mask data).mem = s.mem := by
  obtain ⟨_, h⟩ := s.stage_eq k word mask data; rw [h]
@[simp] theorem State.stage_eeprom (k : SlotId) (word : Addr) (mask : Mask) (data : Word) : (s.stage k word mask data).eeprom = s.eeprom := by
  obtain ⟨_, h⟩ := s.stage_eq k word mask data; rw [h]
@[simp] theorem State.stage_freeCount (k : SlotId) (word : Addr) (mask : Mask) (data : Word) : (s.stage k word mask data).freeCount = s.freeCount := by
  obtain ⟨_, h⟩ := s.stage_eq k word mask data; rw [h]

@[simp] theorem State.post_pending (src : Source) (word : Addr) (mask : Mask) (data : Word) (combine : Bool) : (s.post src word mask data combine).pending = s.pending := by
  obtain ⟨_, _, h⟩ := s.post_eq src word mask data combine; rw [h]
@[simp] theorem State.post_bus (src : Source) (word : Addr) (mask : Mask) (data : Word) (combine : Bool) : (s.post src word mask data combine).bus = s.bus := by
  obtain ⟨_, _, h⟩ := s.post_eq src word mask data combine; rw [h]
@[simp] theorem State.post_lines (src : Source) (word : Addr) (mask : Mask) (data : Word) (combine : Bool) : (s.post src word mask data combine).lines = s.lines := by
  obtain ⟨_, _, h⟩ := s.post_eq src word mask data combine; rw [h]
@[simp] theorem State.post_power (src : Source) (word : Addr) (mask : Mask) (data : Word) (combine : Bool) : (s.post src word mask data combine).power = s.power := by
  obtain ⟨_, _, h⟩ := s.post_eq src word mask data combine; rw [h]
@[simp] theorem State.post_op (src : Source) (word : Addr) (mask : Mask) (data : Word) (combine : Bool) : (s.post src word mask data combine).op = s.op := by
  obtain ⟨_, _, h⟩ := s.post_eq src word mask data combine; rw [h]
@[simp] theorem State.post_guardsCleared (src : Source) (word : Addr) (mask : Mask) (data : Word) (combine : Bool) : (s.post src word mask data combine).guardsCleared = s.guardsCleared := by
  obtain ⟨_, _, h⟩ := s.post_eq src word mask data combine; rw [h]
@[simp] theorem State.post_held (src : Source) (word : Addr) (mask : Mask) (data : Word) (combine : Bool) : (s.post src word mask data combine).held = s.held := by
  obtain ⟨_, _, h⟩ := s.post_eq src word mask data combine; rw [h]
@[simp] theorem State.post_windows (src : Source) (word : Addr) (mask : Mask) (data : Word) (combine : Bool) : (s.post src word mask data combine).windows = s.windows := by
  obtain ⟨_, _, h⟩ := s.post_eq src word mask data combine; rw [h]
@[simp] theorem State.post_region (src : Source) (word : Addr) (mask : Mask) (data : Word) (combine : Bool) : (s.post src word mask data combine).region = s.region := by
  obtain ⟨_, _, h⟩ := s.post_eq src word mask data combine; rw [h]
@[simp] theorem State.post_slots (src : Source) (word : Addr) (mask : Mask) (data : Word) (combine : Bool) : (s.post src word mask data combine).slots = s.slots := by
  obtain ⟨_, _, h⟩ := s.post_eq src word mask data combine; rw [h]
@[simp] theorem State.post_pool (src : Source) (word : Addr) (mask : Mask) (data : Word) (combine : Bool) : (s.post src word mask data combine).pool = s.pool := by
  obtain ⟨_, _, h⟩ := s.post_eq src word mask data combine; rw [h]
@[simp] theorem State.post_sources (src : Source) (word : Addr) (mask : Mask) (data : Word) (combine : Bool) : (s.post src word mask data combine).sources = s.sources := by
  obtain ⟨_, _, h⟩ := s.post_eq src word mask data combine; rw [h]
@[simp] theorem State.post_time (src : Source) (word : Addr) (mask : Mask) (data : Word) (combine : Bool) : (s.post src word mask data combine).time = s.time := by
  obtain ⟨_, _, h⟩ := s.post_eq src word mask data combine; rw [h]
@[simp] theorem State.post_journal (src : Source) (word : Addr) (mask : Mask) (data : Word) (combine : Bool) : (s.post src word mask data combine).journal = s.journal := by
  obtain ⟨_, _, h⟩ := s.post_eq src word mask data combine; rw [h]
@[simp] theorem State.post_apply (src : Source) (word : Addr) (mask : Mask) (data : Word) (combine : Bool) : (s.post src word mask data combine).apply = s.apply := by
  obtain ⟨_, _, h⟩ := s.post_eq src word mask data combine; rw [h]
@[simp] theorem State.post_mp (src : Source) (word : Addr) (mask : Mask) (data : Word) (combine : Bool) : (s.post src word mask data combine).mp = s.mp := by
  obtain ⟨_, _, h⟩ := s.post_eq src word mask data combine; rw [h]
@[simp] theorem State.post_scanner (src : Source) (word : Addr) (mask : Mask) (data : Word) (combine : Bool) : (s.post src word mask data combine).scanner = s.scanner := by
  obtain ⟨_, _, h⟩ := s.post_eq src word mask data combine; rw [h]
@[simp] theorem State.post_cl (src : Source) (word : Addr) (mask : Mask) (data : Word) (combine : Bool) : (s.post src word mask data combine).cl = s.cl := by
  obtain ⟨_, _, h⟩ := s.post_eq src word mask data combine; rw [h]
@[simp] theorem State.post_ml (src : Source) (word : Addr) (mask : Mask) (data : Word) (combine : Bool) : (s.post src word mask data combine).ml = s.ml := by
  obtain ⟨_, _, h⟩ := s.post_eq src word mask data combine; rw [h]
@[simp] theorem State.post_mem (src : Source) (word : Addr) (mask : Mask) (data : Word) (combine : Bool) : (s.post src word mask data combine).mem = s.mem := by
  obtain ⟨_, _, h⟩ := s.post_eq src word mask data combine; rw [h]
@[simp] theorem State.post_eeprom (src : Source) (word : Addr) (mask : Mask) (data : Word) (combine : Bool) : (s.post src word mask data combine).eeprom = s.eeprom := by
  obtain ⟨_, _, h⟩ := s.post_eq src word mask data combine; rw [h]
@[simp] theorem State.post_freeCount (src : Source) (word : Addr) (mask : Mask) (data : Word) (combine : Bool) : (s.post src word mask data combine).freeCount = s.freeCount := by
  obtain ⟨_, _, h⟩ := s.post_eq src word mask data combine; rw [h]

@[simp] theorem State.compareHold_pending (src : Source) (same : HeldRequest → Bool) : (s.compareHold src same).pending = s.pending := by
  obtain ⟨_, h⟩ := s.compareHold_eq src same; rw [h]; rfl
@[simp] theorem State.compareHold_bus (src : Source) (same : HeldRequest → Bool) : (s.compareHold src same).bus = s.bus := by
  obtain ⟨_, h⟩ := s.compareHold_eq src same; rw [h]; rfl
@[simp] theorem State.compareHold_lines (src : Source) (same : HeldRequest → Bool) : (s.compareHold src same).lines = s.lines := by
  obtain ⟨_, h⟩ := s.compareHold_eq src same; rw [h]; rfl
@[simp] theorem State.compareHold_power (src : Source) (same : HeldRequest → Bool) : (s.compareHold src same).power = s.power := by
  obtain ⟨_, h⟩ := s.compareHold_eq src same; rw [h]; rfl
@[simp] theorem State.compareHold_op (src : Source) (same : HeldRequest → Bool) : (s.compareHold src same).op = s.op := by
  obtain ⟨_, h⟩ := s.compareHold_eq src same; rw [h]; rfl
@[simp] theorem State.compareHold_guardsCleared (src : Source) (same : HeldRequest → Bool) : (s.compareHold src same).guardsCleared = s.guardsCleared := by
  obtain ⟨_, h⟩ := s.compareHold_eq src same; rw [h]; rfl
@[simp] theorem State.compareHold_held (src : Source) (same : HeldRequest → Bool) : (s.compareHold src same).held = s.held := by
  obtain ⟨_, h⟩ := s.compareHold_eq src same; rw [h]; rfl
@[simp] theorem State.compareHold_windows (src : Source) (same : HeldRequest → Bool) : (s.compareHold src same).windows = s.windows := by
  obtain ⟨_, h⟩ := s.compareHold_eq src same; rw [h]; rfl
@[simp] theorem State.compareHold_region (src : Source) (same : HeldRequest → Bool) : (s.compareHold src same).region = s.region := by
  obtain ⟨_, h⟩ := s.compareHold_eq src same; rw [h]; rfl
@[simp] theorem State.compareHold_slots (src : Source) (same : HeldRequest → Bool) : (s.compareHold src same).slots = s.slots := by
  obtain ⟨_, h⟩ := s.compareHold_eq src same; rw [h]; rfl
@[simp] theorem State.compareHold_pool (src : Source) (same : HeldRequest → Bool) : (s.compareHold src same).pool = s.pool := by
  obtain ⟨_, h⟩ := s.compareHold_eq src same; rw [h]; rfl
@[simp] theorem State.compareHold_time (src : Source) (same : HeldRequest → Bool) : (s.compareHold src same).time = s.time := by
  obtain ⟨_, h⟩ := s.compareHold_eq src same; rw [h]; rfl
@[simp] theorem State.compareHold_posted (src : Source) (same : HeldRequest → Bool) : (s.compareHold src same).posted = s.posted := by
  obtain ⟨_, h⟩ := s.compareHold_eq src same; rw [h]; rfl
@[simp] theorem State.compareHold_journal (src : Source) (same : HeldRequest → Bool) : (s.compareHold src same).journal = s.journal := by
  obtain ⟨_, h⟩ := s.compareHold_eq src same; rw [h]; rfl
@[simp] theorem State.compareHold_apply (src : Source) (same : HeldRequest → Bool) : (s.compareHold src same).apply = s.apply := by
  obtain ⟨_, h⟩ := s.compareHold_eq src same; rw [h]; rfl
@[simp] theorem State.compareHold_mp (src : Source) (same : HeldRequest → Bool) : (s.compareHold src same).mp = s.mp := by
  obtain ⟨_, h⟩ := s.compareHold_eq src same; rw [h]; rfl
@[simp] theorem State.compareHold_scanner (src : Source) (same : HeldRequest → Bool) : (s.compareHold src same).scanner = s.scanner := by
  obtain ⟨_, h⟩ := s.compareHold_eq src same; rw [h]; rfl
@[simp] theorem State.compareHold_cl (src : Source) (same : HeldRequest → Bool) : (s.compareHold src same).cl = s.cl := by
  obtain ⟨_, h⟩ := s.compareHold_eq src same; rw [h]; rfl
@[simp] theorem State.compareHold_ml (src : Source) (same : HeldRequest → Bool) : (s.compareHold src same).ml = s.ml := by
  obtain ⟨_, h⟩ := s.compareHold_eq src same; rw [h]; rfl
@[simp] theorem State.compareHold_mem (src : Source) (same : HeldRequest → Bool) : (s.compareHold src same).mem = s.mem := by
  obtain ⟨_, h⟩ := s.compareHold_eq src same; rw [h]; rfl
@[simp] theorem State.compareHold_eeprom (src : Source) (same : HeldRequest → Bool) : (s.compareHold src same).eeprom = s.eeprom := by
  obtain ⟨_, h⟩ := s.compareHold_eq src same; rw [h]; rfl
@[simp] theorem State.compareHold_freeCount (src : Source) (same : HeldRequest → Bool) : (s.compareHold src same).freeCount = s.freeCount := by
  obtain ⟨_, h⟩ := s.compareHold_eq src same; rw [h]; rfl

@[simp] theorem State.holdRequest_pending (src : Source) (request : HeldRequest) : (s.holdRequest src request).pending = s.pending := by
  obtain ⟨_, h⟩ := s.holdRequest_eq src request; rw [h]; rfl
@[simp] theorem State.holdRequest_lines (src : Source) (request : HeldRequest) : (s.holdRequest src request).lines = s.lines := by
  obtain ⟨_, h⟩ := s.holdRequest_eq src request; rw [h]; rfl
@[simp] theorem State.holdRequest_power (src : Source) (request : HeldRequest) : (s.holdRequest src request).power = s.power := by
  obtain ⟨_, h⟩ := s.holdRequest_eq src request; rw [h]; rfl
@[simp] theorem State.holdRequest_op (src : Source) (request : HeldRequest) : (s.holdRequest src request).op = s.op := by
  obtain ⟨_, h⟩ := s.holdRequest_eq src request; rw [h]; rfl
@[simp] theorem State.holdRequest_guardsCleared (src : Source) (request : HeldRequest) : (s.holdRequest src request).guardsCleared = s.guardsCleared := by
  obtain ⟨_, h⟩ := s.holdRequest_eq src request; rw [h]; rfl
@[simp] theorem State.holdRequest_held (src : Source) (request : HeldRequest) : (s.holdRequest src request).held = s.held := by
  obtain ⟨_, h⟩ := s.holdRequest_eq src request; rw [h]; rfl
@[simp] theorem State.holdRequest_windows (src : Source) (request : HeldRequest) : (s.holdRequest src request).windows = s.windows := by
  obtain ⟨_, h⟩ := s.holdRequest_eq src request; rw [h]; rfl
@[simp] theorem State.holdRequest_region (src : Source) (request : HeldRequest) : (s.holdRequest src request).region = s.region := by
  obtain ⟨_, h⟩ := s.holdRequest_eq src request; rw [h]; rfl
@[simp] theorem State.holdRequest_slots (src : Source) (request : HeldRequest) : (s.holdRequest src request).slots = s.slots := by
  obtain ⟨_, h⟩ := s.holdRequest_eq src request; rw [h]; rfl
@[simp] theorem State.holdRequest_pool (src : Source) (request : HeldRequest) : (s.holdRequest src request).pool = s.pool := by
  obtain ⟨_, h⟩ := s.holdRequest_eq src request; rw [h]; rfl
@[simp] theorem State.holdRequest_time (src : Source) (request : HeldRequest) : (s.holdRequest src request).time = s.time := by
  obtain ⟨_, h⟩ := s.holdRequest_eq src request; rw [h]; rfl
@[simp] theorem State.holdRequest_posted (src : Source) (request : HeldRequest) : (s.holdRequest src request).posted = s.posted := by
  obtain ⟨_, h⟩ := s.holdRequest_eq src request; rw [h]; rfl
@[simp] theorem State.holdRequest_journal (src : Source) (request : HeldRequest) : (s.holdRequest src request).journal = s.journal := by
  obtain ⟨_, h⟩ := s.holdRequest_eq src request; rw [h]; rfl
@[simp] theorem State.holdRequest_apply (src : Source) (request : HeldRequest) : (s.holdRequest src request).apply = s.apply := by
  obtain ⟨_, h⟩ := s.holdRequest_eq src request; rw [h]; rfl
@[simp] theorem State.holdRequest_mp (src : Source) (request : HeldRequest) : (s.holdRequest src request).mp = s.mp := by
  obtain ⟨_, h⟩ := s.holdRequest_eq src request; rw [h]; rfl
@[simp] theorem State.holdRequest_scanner (src : Source) (request : HeldRequest) : (s.holdRequest src request).scanner = s.scanner := by
  obtain ⟨_, h⟩ := s.holdRequest_eq src request; rw [h]; rfl
@[simp] theorem State.holdRequest_cl (src : Source) (request : HeldRequest) : (s.holdRequest src request).cl = s.cl := by
  obtain ⟨_, h⟩ := s.holdRequest_eq src request; rw [h]; rfl
@[simp] theorem State.holdRequest_ml (src : Source) (request : HeldRequest) : (s.holdRequest src request).ml = s.ml := by
  obtain ⟨_, h⟩ := s.holdRequest_eq src request; rw [h]; rfl
@[simp] theorem State.holdRequest_mem (src : Source) (request : HeldRequest) : (s.holdRequest src request).mem = s.mem := by
  obtain ⟨_, h⟩ := s.holdRequest_eq src request; rw [h]; rfl
@[simp] theorem State.holdRequest_eeprom (src : Source) (request : HeldRequest) : (s.holdRequest src request).eeprom = s.eeprom := by
  obtain ⟨_, h⟩ := s.holdRequest_eq src request; rw [h]; rfl
@[simp] theorem State.holdRequest_freeCount (src : Source) (request : HeldRequest) : (s.holdRequest src request).freeCount = s.freeCount := by
  obtain ⟨_, h⟩ := s.holdRequest_eq src request; rw [h]; rfl

@[simp] theorem State.settle_pending : s.settle.pending = s.pending := by simp [State.settle]
@[simp] theorem State.settle_lines : s.settle.lines = s.lines := by simp [State.settle]
@[simp] theorem State.settle_power : s.settle.power = s.power := by simp [State.settle]
@[simp] theorem State.settle_region : s.settle.region = s.region := by simp [State.settle]
@[simp] theorem State.settle_slots : s.settle.slots = s.slots := by simp [State.settle]
@[simp] theorem State.settle_pool : s.settle.pool = s.pool := by simp [State.settle]
@[simp] theorem State.settle_sources : s.settle.sources = s.sources := by simp [State.settle]
@[simp] theorem State.settle_time : s.settle.time = s.time := by simp [State.settle]
@[simp] theorem State.settle_apply : s.settle.apply = s.apply := by simp [State.settle]
@[simp] theorem State.settle_scanner : s.settle.scanner = s.scanner := by simp [State.settle]
@[simp] theorem State.settle_cl : s.settle.cl = s.cl := by simp [State.settle]
@[simp] theorem State.settle_mem : s.settle.mem = s.mem := by simp [State.settle]
@[simp] theorem State.settle_eeprom : s.settle.eeprom = s.eeprom := by simp [State.settle]
@[simp] theorem State.settle_freeCount : s.settle.freeCount = s.freeCount := by simp [State.settle]

end Sys2Proof.Machine
end

