-- ==== Sys2Proof/Laws/Timers.lean ====
section
/-! SUPPORT. What a tick and the expiries it brings may change: the order of several expiries, one hold, one notice, the
polling window, and the tick as a whole. -/

namespace Sys2Proof.Machine

variable (s : State)

/-! ### The order of several expiries -/

/-- The cyclic order names the same sources, whichever is the first. -/
@[simp] theorem mem_cyclicFrom {first i : Source} {sources : List Source} :
    i ∈ cyclicFrom first sources ↔ i ∈ sources := by
  simp only [cyclicFrom, List.mem_append, List.mem_filter, decide_eq_true_eq]
  refine ⟨fun h => h.elim And.left And.left, fun h => ?_⟩
  rcases le_or_gt first i with c | c
  · exact .inl ⟨h, c⟩
  · exact .inr ⟨h, c⟩

/-- Each source expires once. -/
theorem cyclicFrom_nodup {first : Source} {sources : List Source} (h : sources.Nodup) :
    (cyclicFrom first sources).Nodup := by
  refine List.Nodup.append (h.filter _) (h.filter _) fun i hi hj => ?_
  simp only [List.mem_filter, decide_eq_true_eq] at hi hj
  exact absurd hj.2 (not_lt.mpr hi.2)

/-- The sources whose holds expire at a tick. -/
theorem State.mem_dueHolds {i : Source} : i ∈ s.dueHolds ↔ s.holdDue i = true := by
  simp [State.dueHolds]

/-! ### One expiry -/

/-- A source without a hold record has nothing to expire. -/
theorem State.expireHold_of_none {src : Source} (h : (s.source src).hold = none) : s.expireHold src = s := by
  simp [State.expireHold, h]

/-- The expiry of a hold changes its record, the flags, the counters, and, by an abort, the slots, the Staging Pool and
the last-end record. -/
theorem State.expireHold_eq (src : Source) :
    ∃ sources slots pool flags counters lastEnd, s.expireHold src =
      { s with sources, slots, pool, ml := { s.ml with flags, counters, lastEnd } } := by
  unfold State.expireHold
  split
  · exact ⟨_, _, _, _, _, _, rfl⟩
  · rename_i h _
    dsimp only
    split
    · split
      · rename_i k _ _ _
        obtain ⟨a, b, c, d, e, he⟩ := State.abortGroup_eq
          (((s.setSource src { s.source src with hold := some { h with expired := true } }).count
            .holdExpiries).setFlag .holdExpired) k .conflict
        rw [he]
        exact ⟨_, _, _, _, _, _, rfl⟩
      · exact ⟨_, _, _, _, _, _, rfl⟩
    · exact ⟨_, _, _, _, _, _, rfl⟩

/-- The expiry of a hold makes that record EXPIRED and leaves every other Source Table entry as it is (R70, R76). -/
theorem State.expireHold_source (src i : Source) :
    (s.expireHold src).source i =
      if i = src then { s.source i with hold := (s.source i).hold.map fun h => { h with expired := true } }
      else s.source i := by
  unfold State.expireHold
  split
  · rename_i h
    by_cases c : i = src
    · subst c
      simp only [h, if_true, Option.map_none]
      rw [← h]
    · simp [c]
  · rename_i h hh
    have set : (((s.setSource src { s.source src with hold := some { h with expired := true } }).count
        .holdExpiries).setFlag .holdExpired).source i =
        if i = src then { s.source i with hold := (s.source i).hold.map fun h => { h with expired := true } }
        else s.source i := by
      refine (State.source_congr
        (s := s.setSource src { s.source src with hold := some { h with expired := true } }) rfl i).trans ?_
      by_cases c : i = src
      · subst c
        simp only [hh, if_true, Option.map_some]
        simp [State.source, State.setSource]
      · have c' : (src : Nat) ≠ i := fun e => c (Fin.ext e.symm)
        simp [State.source, State.setSource, c, c']
    dsimp only
    split
    · split
      · rw [State.source_congr (State.abortGroup_sources _ _ _)]; exact set
      · exact set
    · exact set

/-- The expiry of a notice changes its record, the flags and the counters. -/
theorem State.expireNotice_eq (src : Source) :
    ∃ sources flags counters, s.expireNotice src = { s with sources, ml := { s.ml with flags, counters } } :=
  ⟨_, _, _, rfl⟩

/-- The expiry of a notice drops that record and leaves every other Source Table entry as it is (R84). -/
theorem State.expireNotice_source (src i : Source) :
    (s.expireNotice src).source i = if i = src then { s.source i with completion := none } else s.source i := by
  rw [State.source_congr (s := s.setCompletion src none) (t := s.expireNotice src) rfl]
  by_cases c : i = src
  · subst c; simp [State.source, State.setCompletion, State.setSource]
  · have c' : (src : Nat) ≠ i := fun e => c (Fin.ext e.symm)
    simp [State.source, State.setCompletion, State.setSource, c, c']

/-! ### The expiries of a tick -/

/-- Several expiries of holds, in whatever order. -/
theorem State.foldl_expireHold_eq (l : List Source) :
    ∃ sources slots pool flags counters lastEnd, l.foldl State.expireHold s =
      { s with sources, slots, pool, ml := { s.ml with flags, counters, lastEnd } } := by
  induction l generalizing s with
  | nil => exact ⟨_, _, _, _, _, _, rfl⟩
  | cons i l ih =>
    obtain ⟨a, b, c, d, e, f, h⟩ := s.expireHold_eq i
    obtain ⟨a', b', c', d', e', f', h'⟩ := ih (s.expireHold i)
    refine ⟨a', b', c', d', e', f', ?_⟩
    rw [List.foldl_cons, h', h]

/-- What the Source Table holds after several expiries of holds does not depend on their order. -/
theorem State.foldl_expireHold_source (l : List Source) (i : Source) :
    (l.foldl State.expireHold s).source i =
      if i ∈ l then { s.source i with hold := (s.source i).hold.map fun h => { h with expired := true } }
      else s.source i := by
  induction l generalizing s with
  | nil => simp
  | cons j l ih =>
    rw [List.foldl_cons, ih, State.expireHold_source]
    by_cases c : i = j <;> by_cases d : i ∈ l <;>
      simp [c, d, Option.map_map, Function.comp_def]

/-- The expiries of holds at a tick. -/
theorem State.expireHolds_eq :
    ∃ sources slots pool flags counters lastEnd freeCount, s.expireHolds =
      { s with sources, slots, pool, freeCount, ml := { s.ml with flags, counters, lastEnd } } := by
  unfold State.expireHolds
  split
  · exact ⟨_, _, _, _, _, _, _, rfl⟩
  · obtain ⟨a, b, c, d, e, f, h⟩ := s.expireHold_eq _
    exact ⟨a, b, c, d, e, f, s.freeCount, h⟩
  · rename_i due _ _
    obtain ⟨a, b, c, d, e, f, h⟩ := State.foldl_expireHold_eq { s with freeCount := s.freeCount + 1 }
      (cyclicFrom (Config.firstToExpire s.freeCount) s.dueHolds)
    exact ⟨a, b, c, d, e, f, _, h⟩

/-- At a tick every hold that is due expires, and no other (R75, R76). -/
theorem State.expireHolds_source (i : Source) :
    s.expireHolds.source i =
      if s.holdDue i then { s.source i with hold := (s.source i).hold.map fun h => { h with expired := true } }
      else s.source i := by
  unfold State.expireHolds
  split
  · rename_i h
    have : s.holdDue i = false := by
      by_contra c
      have := s.mem_dueHolds.mpr (by simpa using c)
      simp [h] at this
    simp [this]
  · rename_i j h
    have : s.holdDue i = true ↔ i = j := by rw [← s.mem_dueHolds, h]; simp
    rw [State.expireHold_source]
    simp [this]
  · rw [State.foldl_expireHold_source]
    simp only [mem_cyclicFrom, State.mem_dueHolds]
    rfl

/-- The expiries of notices at a tick. -/
theorem State.expireNotices_eq :
    ∃ sources flags counters, s.expireNotices = { s with sources, ml := { s.ml with flags, counters } } := by
  have fold : ∀ (l : List Source) (x : State), ∃ sources flags counters,
      l.foldl State.expireNotice x = { x with sources, ml := { x.ml with flags, counters } } := by
    intro l
    induction l with
    | nil => intro x; exact ⟨_, _, _, rfl⟩
    | cons i l ih =>
      intro x
      obtain ⟨a, b, c, h⟩ := ih (x.expireNotice i)
      exact ⟨a, b, c, h⟩
  exact fold _ s

/-- At a tick every notice that is due is dropped, and no other record changes (R84). -/
theorem State.expireNotices_source (i : Source) :
    s.expireNotices.source i =
      if s.collectDue i then { s.source i with completion := none } else s.source i := by
  have fold : ∀ (l : List Source) (x : State), (l.foldl State.expireNotice x).source i =
      if i ∈ l then { x.source i with completion := none } else x.source i := by
    intro l
    induction l with
    | nil => simp
    | cons j l ih =>
      intro x
      rw [List.foldl_cons, ih, State.expireNotice_source]
      by_cases c : i = j <;> by_cases d : i ∈ l <;> simp [c, d]
  unfold State.expireNotices
  rw [fold]
  simp

/-! ### The polling window and the tick -/

/-- A failed operation of the Configuration Link may end RELOAD's wait for it. -/
theorem State.failLinkOp_eq :
    ∃ cl flags windows op guardsCleared, s.failLinkOp =
      { s with cl, windows, op, guardsCleared, ml := { s.ml with flags } } := by
  obtain ⟨a, b, c, h⟩ := State.endReloadWait_eq
    ({ s with cl := { s.cl with op := none, error := true } }.setFlag .cfgError)
  exact ⟨_, _, a, b, c, h⟩

/-- The end of the polling window. -/
theorem State.expirePolling_eq :
    ∃ eeprom freeCount cl flags windows op guardsCleared, s.expirePolling =
      { s with eeprom, freeCount, cl, windows, op, guardsCleared, ml := { s.ml with flags } } := by
  obtain ⟨e, n, h⟩ := s.mayFinishCell_eq (s.cl.op.bind LinkOp.unfinishedCell)
  obtain ⟨a, b, c, d, f, h'⟩ := (s.mayFinishCell (s.cl.op.bind LinkOp.unfinishedCell)).failLinkOp_eq
  refine ⟨e, n, a, b, c, d, f, ?_⟩
  rw [State.expirePolling, h', h]

/-- Holds and notices at a tick. -/
theorem State.tickSources_eq :
    ∃ sources slots pool flags counters lastEnd freeCount, s.tickSources =
      { s with sources, slots, pool, freeCount, ml := { s.ml with flags, counters, lastEnd } } := by
  unfold State.tickSources
  split
  · obtain ⟨a, b, c, d, e, f, g, h⟩ := s.advanceTimers.expireHolds_eq
    obtain ⟨a', b', c', h'⟩ := s.advanceTimers.expireHolds.expireNotices_eq
    rw [h', h]
    exact ⟨_, _, _, _, _, _, _, rfl⟩
  · exact ⟨_, _, _, _, _, _, _, rfl⟩

/-- The Configuration Link at a tick. -/
theorem State.tickLink_eq :
    ∃ eeprom freeCount cl flags windows op guardsCleared, s.tickLink =
      { s with eeprom, freeCount, cl, windows, op, guardsCleared, ml := { s.ml with flags } } := by
  unfold State.tickLink
  dsimp only
  split
  · obtain ⟨a, b, c, d, e, f, g, h⟩ :=
      State.expirePolling_eq { s with cl := { s.cl with op := s.cl.op.map LinkOp.tick } }
    exact ⟨a, b, c, d, e, f, g, h⟩
  · exact ⟨_, _, _, _, _, _, _, rfl⟩

/-- A tick changes no request, queue, ring, engine, port or RAM. -/
theorem State.tick_eq :
    ∃ sources slots pool time windows op guardsCleared cl eeprom freeCount flags counters lastEnd, s.tick =
      { s with sources, slots, pool, time, windows, op, guardsCleared, cl, eeprom, freeCount,
               ml := { s.ml with flags, counters, lastEnd } } := by
  obtain ⟨a, b, c, d, e, f, g, h⟩ := State.tickSources_eq { s with time := { s.time with count := 0 } }
  obtain ⟨a', b', c', d', e', f', g', h'⟩ :=
    (State.tickSources { s with time := { s.time with count := 0 } }).tickLink_eq
  refine ⟨a, b, c, { s.time with count := 0 }, e', f', g', c', a', b', d', e, f, ?_⟩
  rw [State.tick, h', h]

end Sys2Proof.Machine
end

