-- ==== Sys2Proof/WellFormed.lean ====
section
/-! DEFINITION. Which commands are well formed: two rows of the table carry bytes that other rows own. -/

namespace Sys2Proof

/-- The mark code names no mark: 0 or 6 to 15 (spec/12 section 12.1). -/
def unknownMarkCode (code : BitVec 4) : Bool := decide (code.toNat = 0) || decide (6 ≤ code.toNat)

/-- The bytes of a write transaction are a whole command item, which is a row of its own (R177, R193). -/
def wholeCommand (bytes : List Byte) : Bool :=
  match bytes with
  | [] => false
  | n :: rest =>
    match Machine.Item.ofNumber n with
    | none => false
    | some item =>
      match item.commandLength with
      | none => false
      | some length => decide (length ≤ rest.length)

/-- A BADMARK has an unknown code, and a MANAGEMENT_WRITE_TRANSACTION is no whole command item. Every other operand is
legal at every value of its type: the part itself judges it. -/
def Instr.wellFormed : Instr → Bool
  | .badMark _ code _ => unknownMarkCode code
  | .managementWriteTransaction bytes => !wholeCommand bytes
  | .read _ _ | .readComposition _ | .write _ _ _ _ _ | .openMark _ _ | .commitMark _ _ _ | .discardMark _ _
  | .orderMark _ _ | .flushMark _ _ | .tick | .holdExpiry _ | .collectExpiry _ | .drainWriteCompletion
  | .beginningOfSeal | .sealWriteCompletion | .homeWriteCompletion | .retirement | .pfailAsserted | .pfailDeasserted
  | .powerOnReset | .endOfPowerOnReset | .lrstAsserted | .lrstDeasserted | .endOfLoad _ | .recoveryReadCompletion _
  | .replayWriteCompletion | .clearFlags _ | .alertMask _ | .setRuntimeGuard _ _ | .lockGuards | .setStoredGuard _ _
  | .eepromRead _ | .eepromWrite _ _ | .reload | .linkReset | .randomReadEnd | .acknowledgePollingEnd
  | .missingAcknowledge | .pollingWindowExpiry | .powerLoss | .dataByteAcknowledge => true

end Sys2Proof
end

