-- ==== Sys2Proof/Tests/Slice0.lean ====
section
/-! SUPPORT. Tests: ill-formed commands, one step of each command on a small state, most of them taken from the worked
examples of spec/, and for each claim with hypotheses a state and operands that meet them. -/

namespace Sys2Proof.Machine.Tests

set_option Elab.async false

open Sys2Proof Sys2Proof.Machine

/-! ### Well-formedness -/

theorem test_a_mark_code_1_is_no_bad_mark : Instr.wellFormed (.badMark 3 1 0) = false := by decide
theorem test_a_mark_code_5_is_no_bad_mark : Instr.wellFormed (.badMark 3 5 0) = false := by decide
theorem test_bad_mark_codes : Instr.wellFormed (.badMark 3 0 0) = true ∧ Instr.wellFormed (.badMark 3 6 0) = true ∧
    Instr.wellFormed (.badMark 3 15 0) = true := by decide
theorem test_a_whole_command_is_a_row_of_its_own :
    Instr.wellFormed (.managementWriteTransaction [0x30, 1, 1]) = false ∧
    Instr.wellFormed (.managementWriteTransaction [0x03, 1, 1, 9]) = false ∧
    Instr.wellFormed (.managementWriteTransaction [0x50]) = false := by decide
theorem test_other_write_transactions :
    Instr.wellFormed (.managementWriteTransaction []) = true ∧
    Instr.wellFormed (.managementWriteTransaction [0x00]) = true ∧
    Instr.wellFormed (.managementWriteTransaction [0x30, 1]) = true ∧
    Instr.wellFormed (.managementWriteTransaction [0x77, 1, 1]) = true := by decide
theorem test_no_word_spells_a_command : decodeTableWord 32 0 = none := by decide

/-! ### States -/

/-- The state after a command. -/
def after (c : Instr) (s : State) : State :=
  match exec c s with
  | .next t => t
  | .fault _ => s
  | .refused _ => s

/-- The Window Table of spec/01 section 1.8. -/
def table : Vector Window 8 :=
  ((State.reset.windows.set 0 { Window.empty with present := true, base := 16, limit := 31, target := 256, grouped := true }).set 1
    { Window.empty with present := true, base := 32, limit := 33, target := 272, grouped := true, loose := true,
                        pinGuard := true }).set 2
    { Window.empty with present := true, base := 64, limit := 127, target := 64, combine := true }

/-- RUNNING with that table and the journal region of spec/01 section 1.8. -/
def base : State :=
  { State.reset with power := .up, op := .running, windows := table, region := some { base := 0x120000, size := 16384 } }

/-- The word 0x110000 staged in slot 0, as in spec/03 section 3.7. -/
def entry0 : StagingEntry := { slot := 0, word := 0x110000, data := 250, mask := 15, position := 0 }

/-- A slot 0 in a state, with one staged entry. -/
def slot0 (state : SlotState) : Slot :=
  { Slot.empty with state, owner := some 4, declared := some 2, window := some 1, reservation := 2 }

/-- Source 4 has slot 0 FILLING, one write still to come. -/
def filling : State :=
  { base with
    slots := base.slots.set 0 { slot0 .filling with remaining := some 1 }
    pool := base.pool.set 0 (some entry0)
    sources := base.sources.set 4 { SourceEntry.empty with link := some 0 } }

/-- The same group with one declared write, READY. -/
def ready : State := { filling with slots := base.slots.set 0 { slot0 .ready with remaining := some 0, reservation := 1 } }

/-- The same source with slot 0 ABORTED. -/
def aborted : State :=
  { base with
    slots := base.slots.set 0 { Slot.empty with state := .aborted, owner := some 4, cause := some .nested }
    sources := base.sources.set 4 { SourceEntry.empty with link := some 0 } }

/-- Slot 0 after its COMMIT: a state, the source's notice. -/
def committed (state : SlotState) : State :=
  { base with
    slots := base.slots.set 0 { slot0 state with reservation := 1 }
    pool := base.pool.set 0 (some entry0)
    sources := base.sources.set 4 { SourceEntry.empty with
      completion := some { notice := .commit 0, status := .waiting } } }

/-- Slot 0 QUEUED with its barrier point met. -/
def queued : State :=
  { committed .queued with
    journal := { base.journal with commitQueue := [0] }
    posted := { base.posted with barriers := base.posted.barriers.set 0 (some .met) } }

/-- A posted entry. -/
def posted0 : PostedEntry :=
  { source := 2, word := 0x050000, data := 1, mask := 15, epoch := 0, combine := true, stamp := 40, writing := false }

/-- One posted entry, with no operation in flight. -/
def posting : State := { base with posted := { base.posted with entries := [posted0], nextStamp := 41 } }

/-- The same with its drain write in flight and a FLUSH of source 2 waiting for it. -/
def draining : State :=
  { posting with
    posted := { posting.posted with
      entries := [{ posted0 with writing := true }],
      barriers := base.posted.barriers.set 1 (some (.entry 40)) }
    sources := base.sources.set 2 { SourceEntry.empty with
      completion := some { notice := .flush [40] [], status := .waiting } }
    mp := { base.mp with inFlight := some { requester := .rotor .drain, op := .write 0x050000 15 1 }, rotation := .sealer } }

/-- Source 3's loose write to 0x020000 held on the claim of slot 0. -/
def held3 (expired : Bool) (timer : Nat) : State :=
  { filling with sources := filling.sources.set 3 { SourceEntry.empty with
      hold := some { request := .loose 0x020000, expired, timer } } }

/-- A READ of source 6 in the port. -/
def read6 (granted : Bool) : HeldRead := { source := 6, addr := 0x020000, word := 0x110000, granted }

/-- The READ granted, its word read in flight. -/
def reading (s : State) : State :=
  { s with held := some (read6 true), mp := { base.mp with inFlight := some { requester := .rotor .read, op := .read 0x110000 },
                                                           rotation := .drain } }

/-- An operation in flight. -/
def inFlight (s : State) (requester : Requester) (op : WordOp) : State :=
  { s with mp := { s.mp with inFlight := some { requester, op } } }

/-- The Configuration Link at work. -/
def linking (op : LinkOp) : State := { base with cl := { base.cl with op := some op } }

/-- A valid image: window 0 of spec/01, divider 4, limits 500 and 200, region at 0x120000 of 1,024 bytes; its check byte
makes the sum 0. -/
def image : Memory :=
  [(0, 0x6A), (1, 0x4B), (2, 0x01), (3, 72), (4, 3), (5, 0xF4), (6, 0x01), (7, 0xC8), (10, 0x12), (11, 4), (13, 0xFF),
   (14, 0x01), (15, 0xF6), (16, 0x10), (18, 0x1F), (21, 0x01), (22, 0x06)]

/-- LOADING with that image. -/
def loading : State := { State.reset with power := .up, eeprom := image }

/-- RECOVERING: the survey in a ring of 1,024 bytes, a read of the scanner in flight. -/
def scanning (buffer : List Word) (mem : Memory) : State :=
  { base with
    op := .recovering
    region := some { base := 0x120000, size := 1024 }
    scanner := { Scanner.start with buffer }
    mem
    mp := { base.mp with inFlight := some { requester := .scanner, op := .read (BitVec.ofNat 24 (0x120000 + 4 * buffer.length)) } } }

theorem test_the_image_is_valid : loading.imageValid = true := by decide +kernel

/-! ### One step of each command -/

/-- spec/01 section 1.8, source 3, READ 0x011028 and READ 0x101028. -/
theorem test_read : (after (.read 3 0x011028) base).mp.inFlight =
      some { requester := .rotor .read, op := .read 0x101028 } ∧
    (after (.read 3 0x101028) base).bus = .answer 3 (.fault .hidden) := by decide +kernel

/-- The composed read of spec/05 section 5.7: A0 B1 33 44. -/
theorem test_readComposition :
    let s := { base with
      posted := { base.posted with entries :=
        [{ source := 3, word := 0x110020, data := 0x0000A1A0, mask := 3, epoch := 0, combine := false, stamp := 60,
           writing := false },
         { source := 6, word := 0x110020, data := 0x0000B100, mask := 2, epoch := 0, combine := false, stamp := 61,
           writing := false }] }
      mem := base.mem.writeWord 0x110020 15 0x44332211
      held := some { source := 3, addr := 0x020020, word := 0x110020, granted := true }
      mp := { base.mp with inFlight := some { requester := .rotor .read, op := .read 0x110020 } } }
    (after (.readComposition false) s).bus = .answer 3 (.done 0x4433B1A0) ∧
    (after (.readComposition true) s).bus = .answer 3 (.fault .parity) := by decide +kernel

/-- spec/01 section 1.8: WRITEs of sources 3 and 5 (source 5 is source 4 here). -/
theorem test_write_loose :
    (after (.write 3 0x011028 15 1 false) base).bus = .answer 3 (.fault .ungrouped) ∧
    (after (.write 3 0x120010 15 1 false) base).bus = .answer 3 (.fault .hidden) ∧
    (after (.write 3 0x011002 15 1 false) base).bus = .answer 3 (.fault .align) ∧
    (after (.write 3 0x020008 15 1 true) base).bus = .answer 3 (.fault .guarded) ∧
    ((after (.write 3 0x050000 15 1 false) base).posted.entries.map (·.combine)) = [true] ∧
    ((after (.write 3 0x200004 15 1 false) base).posted.entries.map (·.combine)) = [false] := by decide +kernel

/-- The last write of the group makes it READY; one to another window aborts it (R34, R37). -/
theorem test_write_group :
    (after (.write 4 0x020004 15 7 false) filling).slots[0] =
      { slot0 .ready with remaining := some 0 } ∧
    (after (.write 4 0x020004 15 7 false) filling).pool[1] =
      some { slot := 0, word := 0x110004, data := 7, mask := 15, position := 1 } ∧
    (after (.write 4 0x050000 15 1 false) filling).slots[0].cause = some .window := by decide +kernel

/-- OPEN 5 of spec/02 section 2.9, and the nested OPEN 2. -/
theorem test_openMark :
    (after (.openMark 4 5) base).slots[0].remaining = some 5 ∧ (after (.openMark 4 5) base).unreserved = 91 ∧
    (after (.openMark 4 2) filling).slots[0].cause = some .nested := by decide +kernel

/-- COMMIT of a READY group and of a FILLING one (R43, R45). -/
theorem test_commitMark :
    (after (.commitMark 4 0 false) ready).slots[0].state = .queued ∧
    (after (.commitMark 4 0 false) ready).bus = .answer 4 .retry ∧
    (after (.commitMark 4 0 false) filling).slots[0].cause = some .short := by decide +kernel

/-- DISCARD, reason 7, of spec/02 section 2.9: the data are the code of NESTED. -/
theorem test_discardMark :
    (after (.discardMark 4 7) aborted).bus = .answer 4 (.done 4) ∧
    (after (.discardMark 4 7) filling).ml.lastEnd = some { slot := 0, source := 4, outcome := .discarded 7 } := by
  decide +kernel

/-- ORDER advances the epoch (R95). -/
theorem test_orderMark : (after (.orderMark 2 0) posting).sources[2].epoch = 1 ∧
    (after (.orderMark 2 0) posting).posted = posting.posted := by decide +kernel

/-- FLUSH with one entry posted, and with none (R80). -/
theorem test_flushMark :
    (after (.flushMark 2 0) posting).sources[2].completion =
      some { notice := .flush [40] [], status := .waiting } ∧
    (after (.flushMark 2 0) base).bus = .answer 2 (.done 0) := by decide +kernel

/-- BADMARK (R5). -/
theorem test_badMark : (after (.badMark 2 9 1) base).bus = .answer 2 (.fault .badMark) := by decide +kernel

/-- TICK moves a RUNNING hold timer; QUIESCED it does not (spec/04 section 4.6). At the limit the hold expires at the
tick, and so does a notice (R75, R84). -/
theorem test_tick :
    ((after .tick (held3 false 119)).sources[3].hold.map (·.timer)) = some 120 ∧
    ((after .tick { held3 false 120 with mp := { base.mp with port := .quiesced } }).sources[3].hold.map (·.timer)) =
      some 120 ∧
    (after .tick (held3 false 65534)).sources[3].hold = some { request := .loose 0x020000, expired := true, timer := 65535 } ∧
    (after .tick (held3 false 65534)).counter .holdExpiries = 1 ∧
    (after .tick { base with sources := base.sources.set 4 { SourceEntry.empty with
        completion := some { notice := .commit 0, status := .ready 65534 } } }).flag .collectExpired = true := by
  decide +kernel

/-- HOLD_EXPIRY at the limit (R76); given after the tick it finds nothing more to do (log 12). -/
theorem test_holdExpiry :
    (after (.holdExpiry 3) (held3 false 65534)).counter .holdExpiries = 1 ∧
    (after (.holdExpiry 3) (held3 false 65533)).counter .holdExpiries = 0 ∧
    (after (.holdExpiry 3) (after .tick (held3 false 65534))).counter .holdExpiries = 1 := by decide +kernel

/-- COLLECT_EXPIRY at the limit (R84). -/
theorem test_collectExpiry :
    (after (.collectExpiry 4) { base with sources := base.sources.set 4 { SourceEntry.empty with
        completion := some { notice := .commit 0, status := .ready 65534 } } }).sources[4].completion = none := by
  decide +kernel

/-- DRAIN_WRITE_COMPLETION: the word is in memory, the FLUSH is READY, slot 1's point is met (R81, R97, R103). -/
theorem test_drainWriteCompletion :
    (after .drainWriteCompletion draining).mem.readWord 0x050000 = 1 ∧
    (after .drainWriteCompletion draining).sources[2].completion =
      some { notice := .flush [] [], status := .ready 0 } ∧
    (after .drainWriteCompletion draining).posted.barriers[1] = some .met := by decide +kernel

/-- BEGINNING_OF_SEAL: a record of one entry takes 32 bytes and seven words (R112, R113). -/
theorem test_beginningOfSeal :
    (after .beginningOfSeal queued).slots[0].state = .sealing ∧ (after .beginningOfSeal queued).journal.head = 32 ∧
    ((after .beginningOfSeal queued).journal.sealWrites.map (·.1)).take 2 = [0x120000, 0x120004] ∧
    ((after .beginningOfSeal queued).journal.sealWrites.map (·.2)) =
      [0xA5C30101, 1, 0x02010004, 0xF0110000, 250, ~~~ (0xA5C30101 + 1 + 0x02010004 + 0xF0110000 + 250), ~~~ 1] := by
  decide +kernel

/-- Slot 0 SEALING with its seal word in flight. -/
def lastSealWord : State :=
  inFlight { committed .sealing with
    slots := base.slots.set 0 { slot0 .sealing with reservation := 1, seqNo := some 1, position := some 0, recordSize := some 32 }
    journal := { base.journal with head := 32, fill := 32, seqCounter := 2, sealWrites := [(0x120018, 0xFFFFFFFE)] } }
    (.rotor .sealer) (.write 0x120018 15 0xFFFFFFFE)

/-- SEAL_WRITE_COMPLETION of the seal word: the commit point (R126). -/
theorem test_sealWriteCompletion :
    (after .sealWriteCompletion lastSealWord).slots[0].state = .applying ∧
    (after .sealWriteCompletion lastSealWord).sources[4].completion =
      some { notice := .commit 0, status := .ready 0 } ∧
    (after .sealWriteCompletion lastSealWord).mp.inFlight =
      some { requester := .rotor .apply, op := .write 0x110000 15 250 } := by decide +kernel

/-- Slot 0 APPLYING in a phase. -/
def applyingIn (phase : Phase) : State :=
  { committed .applying with
    slots := base.slots.set 0 { slot0 .applying with reservation := 1, seqNo := some 1, position := some 0, recordSize := some 32,
                                                     cursor := some 0 }
    journal := { base.journal with head := 32, fill := 32, seqCounter := 2 }
    apply := { queue := [], applying := some (0, phase) } }

/-- HOME_WRITE_COMPLETION of the last entry: the header of the retire mark is asked next (R133, R134). -/
theorem test_homeWriteCompletion :
    let t := after .homeWriteCompletion (inFlight (applyingIn .home) (.rotor .apply) (.write 0x110000 15 250))
    t.mem.readWord 0x110000 = 250 ∧
    t.mp.inFlight = some { requester := .rotor .apply, op := .write 0x120000 15 0xA5C30201 } := by decide +kernel

/-- RETIREMENT of spec/06 section 6.7: tail passes the record of 256 bytes and the pad of 128. -/
theorem test_retirement :
    let j := { base.journal with head := 576, tail := 640, fill := 960 }
    (after .retirement (inFlight (applyingIn .retire) (.rotor .apply) (.write 0x120000 15 0xA5C30201))).slots[0] =
      Slot.empty ∧
    (j.release { base := 0x120000, size := 1024 } 640 256 (some 0)).tail = 0 ∧
    (j.release { base := 0x120000, size := 1024 } 640 256 (some 0)).fill = 576 := by decide +kernel

/-- A warning in flight is pending; its completion quiesces (spec/08 section 8.6). -/
theorem test_pfailAsserted :
    (after .pfailAsserted draining).mp.warning = true ∧ (after .pfailAsserted base).mp.port = .quiesced ∧
    (after .drainWriteCompletion (after .pfailAsserted draining)).mp.port = .quiesced := by decide +kernel

theorem test_pfailDeasserted :
    (after .pfailDeasserted { posting with mp := { base.mp with port := .quiesced } }).mp.inFlight =
      some { requester := .rotor .drain, op := .write 0x050000 15 1 } := by decide +kernel

theorem test_powerOnReset :
    (after .powerOnReset { filling with mem := [(0, 5)] }).slots = State.reset.slots ∧
    (after .powerOnReset { filling with mem := [(0, 5)] }).mem = [(0, 5)] := by decide +kernel

theorem test_endOfPowerOnReset :
    (after .endOfPowerOnReset State.reset).op = .loading ∧ (after .endOfPowerOnReset State.reset).power = .up := by
  decide +kernel

theorem test_lrstAsserted :
    (after .lrstAsserted filling).slots[0] = Slot.empty ∧ (after .lrstAsserted filling).sources[4].epoch = 1 ∧
    (after .lrstAsserted filling).lines.lrst = true := by decide +kernel

theorem test_lrstDeasserted :
    (after .lrstDeasserted { base with lines := { base.lines with lrst := true } }).lines.lrst = false := by
  decide +kernel

/-- END_OF_LOAD installs the image, and recovery begins (R161, R164). -/
theorem test_endOfLoad :
    let t := after (.endOfLoad true) loading
    t.op = .recovering ∧ t.windows[0] = table[0] ∧ t.time = { divider := 4, count := 0, holdLimit := 500, collectLimit := 200 } ∧
    t.mp.inFlight = some { requester := .scanner, op := .read 0x120000 } ∧
    (after (.endOfLoad false) loading).op = .unconfigured := by decide +kernel

/-- The record of `test_beginningOfSeal` in memory. -/
def recordMem : Memory :=
  ((Memory.writeWord [] 0x120000 15 0xA5C30101).writeWord 0x120004 15 1).writeWord 0x120018 15 0xFFFFFFFE

/-- RECOVERY_READ_COMPLETION of a header, and of the last word of a valid record (R165, R166). -/
theorem test_recoveryReadCompletion :
    (after (.recoveryReadCompletion false) (scanning [] recordMem)).scanner.buffer = [0xA5C30101] ∧
    (after (.recoveryReadCompletion false) (scanning [0xA5C30101, 1, 0x02010004, 0xF0110000, 250,
        ~~~ (0xA5C30101 + 1 + 0x02010004 + 0xF0110000 + 250)] recordMem)).scanner.chosen =
      some { offset := 0, seqNo := 1, count := 1, origin := 0x02010004, entries := [(0xF0110000, 250)] } ∧
    (after (.recoveryReadCompletion true) (scanning [0xA5C30101, 1] recordMem)).counter .tornCandidates = 1 ∧
    (after (.recoveryReadCompletion false) { scanning [] [] with scanner := { Scanner.start with offset := 1008 } }).op =
      .running := by decide +kernel

/-- The replay of one entry, its home write in flight. -/
def replaying (rest : List (Word × Word)) (op : WordOp) : State :=
  inFlight { scanning [] [] with scanner :=
    { Scanner.start with
      activity := .replaying rest
      chosen := some { offset := 0, seqNo := 61, count := 1, origin := 0x01010004, entries := [(0xF0110000, 250)] }
      highest := some 62 } } .scanner op

/-- REPLAY_WRITE_COMPLETION of a home write, and of the header (spec/09 section 9.4). -/
theorem test_replayWriteCompletion :
    let t := after .replayWriteCompletion (replaying [(0xF0110000, 250)] (.write 0x110000 15 250))
    let u := after .replayWriteCompletion (replaying [] (.write 0x120000 15 0xA5C30201))
    t.mem.readWord 0x110000 = 250 ∧ t.mp.inFlight = some { requester := .scanner, op := .write 0x120000 15 0xA5C30201 } ∧
    u.counter .replayedRecords = 1 ∧ u.scanner.pass = 2 ∧
    u.ml.lastEnd = some { slot := 0, source := 4, outcome := .replayed 61 } := by decide +kernel

theorem test_clearFlags :
    (after (.clearFlags 0x0080) { base with ml := { base.ml with flags := 0x0C0 } }).ml.flags = 0x040 := by decide +kernel
theorem test_alertMask : (after (.alertMask 0xFE01) base).ml.alertMask = 1 := by decide +kernel
theorem test_setRuntimeGuard :
    (after (.setRuntimeGuard 7 1) base).windows[7].runtimeGuard = true ∧
    (after (.setRuntimeGuard 8 1) base).ml.result = .range ∧ (after (.setRuntimeGuard 0 2) base).ml.result = .range := by
  decide +kernel
theorem test_lockGuards : (after .lockGuards base).ml.guardLock = true := by decide +kernel

/-- The stored-guard example of spec/10: flags 0x07, check 0x3A. -/
def guardCells : Memory := [(15, 0x3A), (29, 0x07)]

theorem test_setStoredGuard :
    (after (.setStoredGuard 1 1) base).cl.op = some (.guardReadFlags 1 true) ∧
    (after (.setStoredGuard 1 1) { base with ml := { base.ml with guardLock := true } }).ml.result = .locked := by
  decide +kernel

/-- Step 2 forms 0x0F and 0x32 (spec/10). -/
theorem test_randomReadEnd :
    (after .randomReadEnd { linking (.guardReadFlags 1 true) with eeprom := guardCells }).cl.op =
      some (.guardReadCheck 1 true 0x07) ∧
    (after .randomReadEnd { linking (.guardReadCheck 1 true 0x07) with eeprom := guardCells }).cl.op =
      some (.guardWriteFlags 1 true 0x0F 0x32 .sending) := by decide +kernel

theorem test_dataByteAcknowledge :
    (after .dataByteAcknowledge (linking (.guardWriteFlags 1 true 0x0F 0x32 .sending))).cl.op =
      some (.guardWriteFlags 1 true 0x0F 0x32 (.polling 0)) := by decide +kernel

theorem test_acknowledgePollingEnd :
    (after .acknowledgePollingEnd { linking (.guardWriteFlags 1 true 0x0F 0x32 (.polling 9)) with eeprom := guardCells }).eeprom =
      [(15, 0x3A), (29, 0x0F)] ∧
    (after .acknowledgePollingEnd (linking (.guardWriteCheck 1 true 0x32 (.polling 9)))).windows[1].storedGuard = true := by
  decide +kernel

theorem test_missingAcknowledge :
    (after .missingAcknowledge (linking (.read 5))).cl = { op := none, error := true, result := 0 } ∧
    (after .missingAcknowledge (linking (.write 5 1 (.polling 0)))).cl = (linking (.write 5 1 (.polling 0))).cl := by
  decide +kernel

theorem test_pollingWindowExpiry :
    (after .pollingWindowExpiry (linking (.write 5 1 (.polling 19999)))).cl.error = true ∧
    (after .pollingWindowExpiry (linking (.write 5 1 (.polling 19998)))).cl.error = false ∧
    (after .tick (linking (.write 5 1 (.polling 19999)))).cl = { op := none, error := true, result := 0 } ∧
    (after .tick { linking (.guardWriteCheck 1 true 0x32 (.polling 19999)) with eeprom := guardCells }).eeprom =
      guardCells := by decide +kernel

theorem test_eepromRead :
    (after (.eepromRead 5) base).cl.op = some (.read 5) ∧ (after (.eepromRead 5) loading).ml.result = .busy := by
  decide +kernel
theorem test_eepromWrite : (after (.eepromWrite 5 9) base).cl.op = some (.write 5 9 .sending) := by decide +kernel
theorem test_reload :
    (after .reload posting).op = .reloading ∧ (after .reload base).op = .loading ∧
    (after .reload loading).ml.result = .busy ∧
    (after .reload { base with mp := { base.mp with port := .quiesced } }).op = .reloading ∧
    (after .pfailDeasserted (after .reload { base with mp := { base.mp with port := .quiesced } })).op = .loading := by
  decide +kernel
theorem test_linkReset : (after .linkReset filling).slots[0] = Slot.empty := by decide +kernel

/-- STATUS is read at reset's end: LOADING, counter 1 (spec/12 section 12.4). -/
theorem test_managementWriteTransaction :
    (after (.managementWriteTransaction [0x00]) loading).readTransaction =
      some [0, 0, 0, 0, 0, 0, 0, 0, 0, 0, 1, 0, 0, 0, 0, 0, 0, 0, 0] ∧
    (after (.managementWriteTransaction [0x99]) base).ml.result = .unknown ∧
    (after (.managementWriteTransaction [0x30, 1]) base).ml.result = .short := by decide +kernel

theorem test_powerLoss :
    (after .powerLoss filling).power = .off ∧ (after .powerLoss filling).pool = State.reset.pool := by decide +kernel

/-- Command queue: the front runs, the rest stays. -/
theorem test_step :
    (match step { base with pending := [.lockGuards, .tick] } with
     | .next t => (t.ml.guardLock, t.pending)
     | _ => (false, [])) = (true, [.tick]) := by decide +kernel

/-! ### What meets the hypotheses of the claims

Each theorem is named after a claim of Sys2Proof/Certificates/Slice0/Obligations.lean and gives, for each of its clauses,
a state and operands that meet the clause's hypotheses together. -/

theorem only_none {α : Type} {p : α → Prop} {o : Option α} (h : o = none) : ∀ x, o = some x → p x := by
  intro x hx; rw [h] at hx; cases hx

theorem only_some {α : Type} {p : α → Prop} {o : Option α} {a : α} (h : o = some a) (ha : p a) :
    ∀ x, o = some x → p x := by
  intro x hx; rw [h] at hx; cases hx; exact ha

theorem serving_base : Serving base := by unfold Serving; decide +kernel
theorem serving_filling : Serving filling := by unfold Serving; decide +kernel
theorem servingWrite_base : ServingWrite base := ⟨serving_base, by decide +kernel⟩
theorem servingWrite_filling : ServingWrite filling := ⟨serving_filling, by decide +kernel⟩

theorem witness_ClockAndTicks_cycle :
    (∃ s : State, s.pending = [] ∧ s.power ≠ .up) ∧
    (∃ s : State, s.pending = [] ∧ s.power = .up ∧ s.time.count + 1 < s.time.divider) ∧
    (∃ s : State, s.pending = [] ∧ s.power = .up ∧ s.time.divider = s.time.count + 1) :=
  ⟨⟨State.reset, by decide +kernel⟩, ⟨{ base with time := { base.time with divider := 2 } }, by decide +kernel⟩,
    ⟨base, by decide +kernel⟩⟩

theorem witness_ClockAndTicks_tick :
    State.reset.power ≠ .up ∧ base.power = .up ∧ base.cl.op.bind LinkOp.polledCell = none ∧
    (∀ n, (linking (.write 5 1 (.polling n))).cl.op = some (.write 5 1 (.polling n)) ∧
      (linking (.guardWriteFlags 1 true 5 1 (.polling n))).cl.op = some (.guardWriteFlags 1 true 5 1 (.polling n)) ∧
      (linking (.guardWriteCheck 1 true 5 (.polling n))).cl.op = some (.guardWriteCheck 1 true 5 (.polling n))) ∧
    19998 + 1 < 20000 ∧ 20000 ≤ 19999 + 1 :=
  ⟨by decide +kernel, rfl, by decide +kernel, fun _ => ⟨rfl, rfl, rfl⟩, by decide⟩

theorem witness_PowerAndReset :
    (∃ s : State, s.mp.inFlight = some { requester := .rotor .drain, op := .write 0x050000 15 1 }) ∧
    (∃ s : State, s.mp.inFlight = none ∧ s.cl.op.bind LinkOp.polledCell = none) ∧
    (∃ s : State, s.cl.op.bind LinkOp.polledCell = some (5, 1)) ∧
    (∃ s : State, s.power = .inReset ∧ s.mp = State.reset.mp ∧ s.held = none ∧ s.lines.pfail = false) ∧
    (∃ s : State, s.power = .inReset ∧ s.mp = State.reset.mp ∧ s.held = none ∧ s.lines.pfail = true) :=
  ⟨⟨draining, by decide +kernel⟩, ⟨base, by decide +kernel⟩, ⟨linking (.write 5 1 (.polling 0)), by decide +kernel⟩,
    ⟨State.reset, by decide +kernel⟩,
    ⟨{ State.reset with lines := { State.reset.lines with pfail := true } }, by decide +kernel⟩⟩

theorem witness_LoadInstallsOrFails :
    (∃ s : State, s.power = .up ∧ s.op = .loading ∧ s.imageValid = true) ∧
    (∃ s : State, s.power = .up ∧ s.op = .loading ∧ s.imageValid = false) :=
  ⟨⟨loading, by decide +kernel⟩, ⟨{ loading with eeprom := [] }, by decide +kernel⟩⟩

theorem witness_ImageTests :
    (∃ (s : State) (b : Byte), s.eeprom.wf = true ∧ s.imageValid = true ∧ 71 < 72 ∧ b ≠ s.imageByte 71 ∧
      b ≠ s.imageByte 0) ∧
    ((loading.eeprom.get (22 + 7 * (0 : WindowId).val)).getLsbD 1 = true ∧
      (loading.eeprom.get (22 + 7 * (7 : WindowId).val)).getLsbD 1 = false) :=
  ⟨⟨loading, 1, by decide +kernel⟩, by decide +kernel⟩

/-- The table of spec/01 section 1.8 is sound. -/
theorem tableSound_base : TableSound base := by
  have h : ∀ i : WindowId, base.windows[i].present = true →
      base.windows[i].base ≤ base.windows[i].limit ∧ base.windows[i].limit ≤ 4095 ∧
      base.windows[i].target + (base.windows[i].limit - base.windows[i].base) ≤ 4095 ∧
      (4096 * (base.windows[i].target + (base.windows[i].limit - base.windows[i].base) + 1) ≤ 0x120000 ∨
        0x120000 + 16384 ≤ 4096 * base.windows[i].target) := by decide +kernel
  refine ⟨fun i hi => ?_, by decide +kernel⟩
  obtain ⟨h1, h2, h3, h4⟩ := h i hi
  exact ⟨h1, h2, h3, _, rfl, h4⟩

theorem witness_OneUpstreamNameForEachWord :
    TableSound base ∧ (base.lookup 0x011028).hidden = false ∧ (base.lookup 0x01FFFC).window = some 0 ∧
    (base.lookup 0x010000).window = some 0 ∧ (base.lookup 0x00FFFC).window = none ∧
    ((base.lookup 0x123FFC).hidden = true ∧ (base.lookup 0x124000).hidden = false) ∧
    ((base.lookup 0x100000).hidden = true ∧ (base.lookup 0x0FFFFC).hidden = false) :=
  ⟨tableSound_base, by decide +kernel⟩

theorem witness_RequestsNotJudged_waits :
    State.reset.power ≠ .up ∧ (∃ s : State, s.power = .up ∧ s.lines.lrst = true) ∧ (∃ s : State, s.held ≠ none) ∧
    (∃ s : State, s.posted.entries.length = 16) :=
  ⟨by decide +kernel, ⟨{ base with lines := { base.lines with lrst := true } }, by decide +kernel⟩,
    ⟨reading base, by decide +kernel⟩,
    ⟨{ base with posted := { base.posted with entries := List.replicate 16 posted0 } }, by decide +kernel⟩⟩

theorem witness_RequestsNotJudged_answered :
    (∃ s : State, s.power = .up ∧ s.lines.lrst = false ∧ s.held = none ∧ s.mp.port = .quiesced ∧
      s.posted.entries.length = 15) ∧
    (∀ op ∈ [OperatingState.loading, .recovering, .reloading, .unconfigured], ∃ s : State,
      s.power = .up ∧ s.lines.lrst = false ∧ s.held = none ∧ s.mp.port = .active ∧ s.op = op ∧
      s.posted.entries.length < 16) :=
  ⟨⟨{ base with mp := { base.mp with port := .quiesced },
                posted := { base.posted with entries := List.replicate 15 posted0 } }, by decide +kernel⟩,
    fun op _ => ⟨{ base with op }, rfl, rfl, rfl, rfl, rfl, Nat.zero_lt_succ 15⟩⟩

theorem witness_FormFaults :
    Serving base ∧ base.posted.entries.length < 16 ∧ (0x011002 : Addr).toNat % 4 ≠ 0 ∧ (0x011004 : Addr).toNat % 4 = 0 :=
  ⟨serving_base, by decide +kernel⟩

theorem witness_ReadIsHeldOrHidden :
    Serving base ∧ (0x011028 : Addr).toNat % 4 = 0 ∧ (base.lookup 0x011028).hidden = false ∧
    (base.lookup 0x101028).hidden = true := ⟨serving_base, by decide +kernel⟩

theorem witness_ReadCompositionAnswersTheRead :
    (∃ (s : State) (h : HeldRead), s.mp.inFlight = some { requester := .rotor .read, op := .read 0x110000 } ∧
      s.held = some h ∧ h.granted = true) ∧
    (∃ s : State, s.mp.inFlight = some { requester := .rotor .read, op := .read 0x110000 } ∧
      ∀ h : HeldRead, s.held = some h → h.granted = false) :=
  ⟨⟨reading base, read6 true, by decide +kernel⟩,
    ⟨{ reading base with held := some (read6 false) }, by decide +kernel, only_some rfl rfl⟩⟩

theorem witness_WhatAReadSees :
    base.claimOf 0x110000 = none ∧ (∀ state ∈ [SlotState.filling, .ready, .queued, .sealing, .sealed, .applying],
      ∃ s : State, s.claimOf 0x110000 = some entry0 ∧ (s.slot 0).state = state) := by
  refine ⟨by decide +kernel, fun state _ => ⟨committed state, by cases state <;> decide +kernel, rfl⟩⟩

theorem witness_LooseWriteRefusedOrHeld_refused :
    ServingWrite base ∧ (base.source 3).link = none ∧
    ((base.sampleGuard false).lookup 0x120010).hidden = true ∧
    (((base.sampleGuard false).lookup 0x011028).hidden = false ∧
      ((base.sampleGuard false).lookup 0x011028).grouped = true ∧
      ((base.sampleGuard false).lookup 0x011028).loose = false) ∧
    (((base.sampleGuard true).lookup 0x020008).hidden = false ∧
      ((base.sampleGuard true).lookup 0x020008).loose = true ∧
      ((base.sampleGuard true).lookup 0x020008).guarded = true) := ⟨servingWrite_base, by decide +kernel⟩

theorem servingWrite_held3 (expired : Bool) (timer : Nat) : ServingWrite (held3 expired timer) :=
  ⟨⟨rfl, rfl, rfl, rfl, rfl⟩, Nat.zero_lt_succ 15⟩

theorem witness_LooseWriteRefusedOrHeld_held :
    let l := (filling.sampleGuard false).lookup 0x020000
    (l.hidden = false ∧ l.loose = true ∧ l.guarded = false ∧ filling.claimOf l.word = some entry0) ∧
    (∀ expired, ServingWrite (held3 expired 5) ∧ ((held3 expired 5).source 3).link = none ∧
      ((held3 expired 5).source 3).hold = some { request := .loose 0x020000, expired, timer := 5 } ∧
      (held3 expired 5).claimOf l.word = some entry0) ∧
    (ServingWrite filling ∧ (filling.source 3).link = none ∧
      ∀ h : Hold, (filling.source 3).hold = some h → h.request.isWriteTo 0x020000 = false) :=
  ⟨by decide +kernel, fun expired => ⟨servingWrite_held3 expired 5, by cases expired <;> decide +kernel⟩,
    servingWrite_filling, by decide +kernel, only_none (by decide +kernel)⟩

theorem witness_LooseWriteIsPosted :
    let l := (posting.sampleGuard false).lookup 0x050000
    (ServingWrite posting ∧ (posting.source 2).link = none ∧ l.hidden = false ∧ l.grouped = false ∧ l.guarded = false ∧
      posting.claimOf l.word = none) ∧
    (∀ h : Hold, (posting.source 2).hold = some h → h.request.isWriteTo 0x050000 = true → h.expired = false) ∧
    (l.combine = true ∧ combineInto 2 (posting.source 2).epoch l.word 15 3 posting.posted.entries =
      some [{ posted0 with data := 3 }]) ∧
    combineInto 7 (posting.source 7).epoch l.word 15 3 posting.posted.entries = none ∧
    ((posting.sampleGuard false).lookup 0x200004).combine = false :=
  ⟨⟨⟨⟨rfl, rfl, rfl, rfl, rfl⟩, by decide⟩, by decide +kernel⟩, only_none (by decide +kernel), by decide +kernel,
    by decide +kernel⟩

theorem witness_GroupWriteIsStaged :
    let l := (filling.sampleGuard false).lookup 0x020004
    let m := (filling.sampleGuard false).lookup 0x020000
    (ServingWrite filling ∧ (filling.source 4).link = some 0 ∧ (filling.slot 0).state = .filling ∧
      (filling.slot 0).remaining = some (0 + 1)) ∧
    (windowFits (filling.slot 0).window l = true ∧ l.guarded = false ∧ filling.claimOf l.word = none ∧
      filling.pool[1] = none ∧ ∀ j : Fin 96, j < 1 → filling.pool[j] ≠ none) ∧
    (windowFits (filling.slot 0).window m = true ∧ m.guarded = false ∧ filling.claimOf m.word = some entry0) :=
  ⟨⟨servingWrite_filling, by decide +kernel⟩, by decide +kernel, by decide +kernel⟩

/-- Slot 0 FILLING for source 4, the word claimed by slot 1. -/
def contested : State :=
  { filling with
    slots := filling.slots.set 1 { slot0 .queued with owner := some 5, reservation := 1 }
    pool := base.pool.set 0 (some { entry0 with slot := 1 }) }

/-- The same with source 4's write already held. -/
def contestedHeld : State :=
  { contested with sources := contested.sources.set 4 { SourceEntry.empty with
      link := some 0, hold := some { request := .group 0x020000, expired := false, timer := 9 } } }

theorem witness_GroupWriteHeldOrAborted_held :
    let l := (contested.sampleGuard false).lookup 0x020000
    (ServingWrite contested ∧ (contested.source 4).link = some 0 ∧ (contested.slot 0).state = .filling ∧
      windowFits (contested.slot 0).window l = true ∧ l.guarded = false ∧
      contested.claimOf l.word = some { entry0 with slot := 1 }) ∧
    (∀ h : Hold, (contested.source 4).hold = some h → h.request.isWriteTo 0x020000 = false) ∧
    (ServingWrite contestedHeld ∧ (contestedHeld.source 4).link = some 0 ∧
      (contestedHeld.source 4).hold = some { request := .group 0x020000, expired := false, timer := 9 } ∧
      contestedHeld.claimOf l.word = some { entry0 with slot := 1 }) :=
  ⟨⟨⟨⟨rfl, rfl, rfl, rfl, rfl⟩, by decide⟩, by decide +kernel⟩, only_none (by decide +kernel),
    ⟨⟨rfl, rfl, rfl, rfl, rfl⟩, by decide⟩, by decide +kernel⟩

theorem witness_GroupWriteHeldOrAborted_aborted :
    (ServingWrite aborted ∧ (aborted.source 4).link = some 0 ∧ (aborted.slot 0).state = .aborted) ∧
    (ServingWrite ready ∧ (ready.source 4).link = some 0 ∧ (ready.slot 0).state = .ready) ∧
    (ServingWrite filling ∧ (filling.source 4).link = some 0 ∧ (filling.slot 0).state = .filling ∧
      windowFits (filling.slot 0).window ((filling.sampleGuard false).lookup 0x050000) = false) ∧
    (windowFits (filling.slot 0).window ((filling.sampleGuard true).lookup 0x020004) = true ∧
      ((filling.sampleGuard true).lookup 0x020004).guarded = true) :=
  ⟨⟨⟨⟨rfl, rfl, rfl, rfl, rfl⟩, by decide⟩, by decide +kernel⟩,
    ⟨⟨⟨rfl, rfl, rfl, rfl, rfl⟩, by decide⟩, by decide +kernel⟩, ⟨servingWrite_filling, by decide +kernel⟩,
    by decide +kernel⟩

theorem witness_LooseWriteIsPosted_combines :
    combineInto 2 0 0x050000 15 3 [posted0] = some [{ posted0 with data := 3 }] := by decide +kernel

theorem witness_NoGuardedWriteIsAccepted :
    ((filling.sampleGuard true).lookup 0x020004).guarded = true ∧
    ((ready.source 4).link = some 0 ∧ (ready.slot 0).state ≠ .queued ∧ (ready.slot 0).window = some 1 ∧
      (ready.sampleGuard true).windowGuarded 1 = true) := by decide +kernel

/-- Source 4's OPEN of a count held. -/
def heldOpen (n : Byte) (expired : Bool) : State :=
  { base with sources := base.sources.set 4 { SourceEntry.empty with
      hold := some { request := .openMark n, expired, timer := 7 } } }

theorem serving_heldOpen (n : Byte) (expired : Bool) : Serving (heldOpen n expired) := ⟨rfl, rfl, rfl, rfl, rfl⟩

theorem witness_IllegalCountIsFaulted :
    (Serving base ∧ (base.source 4).link = none ∧ (∀ h : Hold, (base.source 4).hold = some h → h.request ≠ .openMark 33)) ∧
    (Serving (heldOpen 0 false) ∧ ((heldOpen 0 false).source 4).link = none ∧
      ∀ h : Hold, ((heldOpen 0 false).source 4).hold = some h → h.request = .openMark 0) ∧
    (0 : Byte).toNat = 0 ∧ 33 ≤ (33 : Byte).toNat :=
  ⟨⟨serving_base, by decide +kernel, only_none (by decide +kernel)⟩,
    ⟨serving_heldOpen 0 false, by decide +kernel, fun h hh => by
      have e : ((heldOpen 0 false).source 4).hold = some { request := .openMark 0, expired := false, timer := 7 } := by
        decide +kernel
      rw [e] at hh; cases hh; rfl⟩, by decide⟩

theorem witness_OpenIsServedOrHeld_served :
    (Serving base ∧ (base.source 4).link = none ∧ (base.slot 0).state = .free ∧
      (∀ j : SlotId, j < 0 → (base.slot j).state ≠ .free) ∧ (32 : Byte).toNat ≤ base.unreserved ∧
      (base.source 4).completion = none) ∧
    (∀ h : Hold, (base.source 4).hold = some h → h.request = .openMark 32 → h.expired = false) ∧
    (Serving draining ∧ (draining.source 2).link = none ∧ (draining.slot 0).state = .free ∧
      (1 : Byte).toNat ≤ draining.unreserved ∧ (draining.source 2).completion ≠ none) :=
  ⟨⟨serving_base, by decide +kernel⟩, only_none (by decide +kernel), ⟨rfl, rfl, rfl, rfl, rfl⟩, by decide +kernel⟩

/-- Every slot APPLYING or so, none FREE. -/
def full (s : State) : State := { s with slots := Vector.replicate 4 (slot0 .aborted) }

theorem witness_OpenIsServedOrHeld_held :
    (∀ expired, Serving (heldOpen 1 expired) ∧ ((heldOpen 1 expired).source 4).link = none ∧
      ((heldOpen 1 expired).source 4).completion = none ∧
      ((heldOpen 1 expired).source 4).hold = some { request := .openMark 1, expired, timer := 7 }) ∧
    (Serving (full (heldOpen 1 false)) ∧ ((full (heldOpen 1 false)).source 4).hold =
      some { request := .openMark 1, expired := false, timer := 7 } ∧
      ∀ k, ((full (heldOpen 1 false)).slot k).state ≠ .free) ∧
    (Serving (full base) ∧ ((full base).source 4).link = none ∧ ((full base).source 4).completion = none ∧
      (∀ k, ((full base).slot k).state ≠ .free)) ∧
    (∀ h : Hold, ((full base).source 4).hold = some h → h.request ≠ .openMark 1) :=
  ⟨fun expired => ⟨serving_heldOpen 1 expired, by cases expired <;> decide +kernel⟩,
    ⟨⟨rfl, rfl, rfl, rfl, rfl⟩, by decide +kernel⟩, ⟨⟨rfl, rfl, rfl, rfl, rfl⟩, by decide +kernel⟩,
    only_none (by decide +kernel)⟩

/-- A source with a completion record and its OPEN held, none FREE or the hold EXPIRED. -/
theorem witness_OpenIsServedOrHeld_abandoned (expired : Bool) :
    let s := { heldOpen 1 expired with sources := base.sources.set 4 { SourceEntry.empty with
      hold := some { request := .openMark 1, expired, timer := 7 },
      completion := some { notice := .commit 1, status := .waiting } } }
    Serving (full s) ∧ ((full s).source 4).link = none ∧ ((full s).source 4).completion ≠ none ∧
    ((full s).source 4).hold = some { request := .openMark 1, expired, timer := 7 } ∧
    ∀ k, ((full s).slot k).state ≠ .free :=
  ⟨⟨rfl, rfl, rfl, rfl, rfl⟩, by cases expired <;> decide +kernel⟩

theorem witness_OpenFromALinkedSource :
    (Serving filling ∧ (filling.source 4).link = some 0 ∧ (filling.slot 0).state = .filling) ∧
    (Serving ready ∧ (ready.source 4).link = some 0 ∧ (ready.slot 0).state = .ready) ∧
    (Serving aborted ∧ (aborted.source 4).link = some 0 ∧ (aborted.slot 0).state = .aborted) :=
  ⟨⟨serving_filling, by decide +kernel⟩, ⟨⟨rfl, rfl, rfl, rfl, rfl⟩, by decide +kernel⟩,
    ⟨rfl, rfl, rfl, rfl, rfl⟩, by decide +kernel⟩

theorem witness_CommitIsAccepted :
    Serving ready ∧ (ready.source 4).link = some 0 ∧ (ready.slot 0).state = .ready ∧ (ready.slot 0).window = some 1 ∧
    (ready.sampleGuard false).windowGuarded 1 = false := ⟨⟨rfl, rfl, rfl, rfl, rfl⟩, by decide +kernel⟩

theorem witness_CommitIsNotAccepted :
    (Serving filling ∧ (filling.source 4).link = some 0 ∧ (filling.slot 0).state = .filling) ∧
    (Serving ready ∧ (ready.source 4).link = some 0 ∧ (ready.slot 0).state = .ready ∧ (ready.slot 0).window = some 1 ∧
      (ready.sampleGuard true).windowGuarded 1 = true) ∧
    (Serving aborted ∧ (aborted.source 4).link = some 0 ∧ (aborted.slot 0).state = .aborted) ∧
    (Serving draining ∧ (draining.source 2).link = none ∧
      ∀ c : Completion, (draining.source 2).completion = some c → ∃ stamps slots, c.notice = .flush stamps slots) :=
  ⟨⟨serving_filling, by decide +kernel⟩, ⟨⟨rfl, rfl, rfl, rfl, rfl⟩, by decide +kernel⟩,
    ⟨⟨rfl, rfl, rfl, rfl, rfl⟩, by decide +kernel⟩, ⟨rfl, rfl, rfl, rfl, rfl⟩, by decide +kernel,
    only_some (a := { notice := .flush [40] [], status := .waiting }) (by decide +kernel) ⟨_, _, rfl⟩⟩

/-- Source 4 with a completion record. -/
def noticed (c : Completion) : State :=
  { base with sources := base.sources.set 4 { SourceEntry.empty with completion := some c } }

theorem serving_noticed (c : Completion) : Serving (noticed c) := ⟨rfl, rfl, rfl, rfl, rfl⟩

theorem source_noticed (c : Completion) : (noticed c).source 4 = { SourceEntry.empty with completion := some c } := by
  simp [noticed, State.source]

theorem witness_RepeatsAreAnsweredFromTheRecord (status : NoticeStatus) :
    (Serving (noticed { notice := .commit 0, status }) ∧ ((noticed { notice := .commit 0, status }).source 4).link = none ∧
      ((noticed { notice := .commit 0, status }).source 4).completion = some { notice := .commit 0, status }) ∧
    (Serving (noticed { notice := .flush [40] [1], status }) ∧
      ((noticed { notice := .flush [40] [1], status }).source 4).completion =
        some { notice := .flush [40] [1], status }) :=
  ⟨⟨serving_noticed _, by rw [source_noticed]; exact ⟨rfl, rfl⟩⟩, serving_noticed _, by rw [source_noticed]⟩

theorem witness_DiscardFreesAnOpenGroup :
    (Serving filling ∧ (filling.source 4).link = some 0 ∧ (filling.slot 0).state = .filling ∧
      (filling.slot 0).owner = some 4) ∧
    (Serving ready ∧ (ready.source 4).link = some 0 ∧ (ready.slot 0).state = .ready ∧ (ready.slot 0).owner = some 4) :=
  ⟨⟨serving_filling, by decide +kernel⟩, ⟨rfl, rfl, rfl, rfl, rfl⟩, by decide +kernel⟩

theorem pool_of_base (i : Fin 96) (e : StagingEntry) : base.pool[i] ≠ some e := by
  simp [base, State.reset]

theorem witness_DiscardReportsTheAbortCause :
    Serving aborted ∧ ClaimsSound aborted ∧ (aborted.source 4).link = some 0 ∧ (aborted.slot 0).state = .aborted ∧
    (aborted.slot 0).cause = some .nested :=
  ⟨⟨rfl, rfl, rfl, rfl, rfl⟩, ⟨fun i _ e _ h _ _ => absurd h (pool_of_base i e), fun i e h => absurd h (pool_of_base i e)⟩,
    by decide +kernel⟩

theorem witness_DiscardWithoutAGroup : Serving base ∧ (base.source 3).link = none := ⟨serving_base, by decide +kernel⟩

theorem witness_OrderAdvancesTheEpoch : Serving posting := ⟨rfl, rfl, rfl, rfl, rfl⟩

theorem witness_FlushFormsItsWaitSet :
    (Serving base ∧ (base.source 4).completion = none ∧ base.posted.entries = [] ∧
      allSlots.filter (fun k => decide ((base.slot k).state = .queued ∨ (base.slot k).state = .sealing ∨
        (base.slot k).state = .sealed ∨ (base.slot k).state = .applying)) = []) ∧
    (∀ c : Completion, (base.source 4).completion = some c → ∃ k, c.notice = .commit k) ∧
    (Serving queued ∧ queued.posted.entries = [] ∧
      allSlots.filter (fun k => decide ((queued.slot k).state = .queued ∨ (queued.slot k).state = .sealing ∨
        (queued.slot k).state = .sealed ∨ (queued.slot k).state = .applying)) ≠ []) ∧
    (∀ c : Completion, (queued.source 4).completion = some c → ∃ k, c.notice = .commit k) ∧
    (Serving posting ∧ posting.posted.entries ≠ []) :=
  ⟨⟨serving_base, by decide +kernel⟩, only_none (by decide +kernel), ⟨⟨rfl, rfl, rfl, rfl, rfl⟩, by decide +kernel⟩,
    only_some (a := { notice := .commit 0, status := .waiting }) (by decide +kernel) ⟨_, rfl⟩,
    ⟨rfl, rfl, rfl, rfl, rfl⟩, by decide +kernel⟩

/-- The held group write of `contestedHeld` one tick before its limit. -/
def contestedDue : State :=
  { contested with sources := contested.sources.set 4 { SourceEntry.empty with
      link := some 0, hold := some { request := .group 0x020000, expired := false, timer := 65534 } } }

theorem witness_HoldsAndNoticesExpire_commands :
    (∀ timer, (held3 false timer).power = .up ∧ (held3 false timer).op = .running ∧ (held3 false timer).mp.port = .active ∧
      (held3 false timer).time.holdLimit = 65535) ∧
    (((held3 false 65534).source 3).hold = some { request := .loose 0x020000, expired := false, timer := 65534 } ∧
      ((held3 false 65533).source 3).hold = some { request := .loose 0x020000, expired := false, timer := 65533 } ∧
      ((held3 true 65535).source 3).hold = some { request := .loose 0x020000, expired := true, timer := 65535 }) ∧
    (∀ a, HeldRequest.loose 0x020000 ≠ .group a) ∧
    (contestedDue.power = .up ∧ contestedDue.op = .running ∧ contestedDue.mp.port = .active ∧
      (contestedDue.source 4).hold = some { request := .group 0x020000, expired := false, timer := 65534 } ∧
      (contestedDue.source 4).link = some 0 ∧ (contestedDue.slot 0).state = .filling) ∧
    (∀ status, (noticed { notice := .commit 0, status }).power = .up ∧
      (noticed { notice := .commit 0, status }).op = .running ∧
      (noticed { notice := .commit 0, status }).mp.port = .active ∧
      (noticed { notice := .commit 0, status }).time.collectLimit = 65535 ∧
      ((noticed { notice := .commit 0, status }).source 4).completion = some { notice := .commit 0, status }) :=
  ⟨fun _ => ⟨rfl, rfl, rfl, rfl⟩, by decide +kernel, fun a h => (by cases h), by decide +kernel,
    fun _ => ⟨rfl, rfl, rfl, rfl, by rw [source_noticed]⟩⟩

/-- A tick with nothing due, with one hold due, with a group to abort, and with the timers suspended. -/
theorem witness_HoldsAndNoticesExpire_tick :
    (State.reset.power ≠ .up ∧ loading.op ≠ .running ∧ (∃ s : State, s.mp.port ≠ .active)) ∧
    (base.power = .up ∧ base.op = .running ∧ base.mp.port = .active) ∧
    (contestedDue.source 4).link = some 0 ∧ (contestedDue.slot 0).state = .filling ∧
    (after .tick contestedDue).slots[0].cause = some .conflict ∧ (after .tick base).slots = base.slots :=
  ⟨⟨by decide +kernel, by decide +kernel, { base with mp := { base.mp with port := .quiesced } }, by decide +kernel⟩,
    by decide +kernel, by decide +kernel⟩

theorem witness_GrantGoesRound :
    (State.reset.power ≠ .up ∧ (reading base).mp.inFlight ≠ none) ∧
    (∃ s : State, s.power = .up ∧ s.mp.port = .active ∧ s.mp.inFlight = none ∧ s.mp.warning = false ∧
      s.op = .recovering ∧ s.scannerOp ≠ none) ∧
    (base.mp.port = .active ∧ base.op ≠ .recovering ∧ base.nextOp .read = none ∧ base.nextOp .drain = none ∧
      base.nextOp .sealer = none ∧ base.nextOp .apply = none) ∧
    (posting.power = .up ∧ posting.mp.port = .active ∧ posting.mp.inFlight = none ∧ posting.mp.warning = false ∧
      posting.mp.rotation = .read ∧ posting.nextOp .read = none ∧
      posting.nextOp .drain = some (.write 0x050000 15 1)) :=
  ⟨by decide +kernel, ⟨{ scanning [] [] with mp := base.mp }, by decide +kernel⟩, by decide +kernel, by decide +kernel⟩

theorem witness_GrantGoesRound_asks :
    (base.held = none ∧ (∀ granted, ({ base with held := some (read6 granted) } : State).held = some (read6 granted))) ∧
    (posting.posted.entries = [posted0] ∧ (∀ x ∈ posting.posted.entries, x.writing = false) ∧
      ∃ x ∈ draining.posted.entries, x.writing = true) ∧
    (lastSealWord.journal.sealWrites = [(0x120018, 0xFFFFFFFE)] ∧ base.journal.sealWrites = []) ∧
    (base.apply.applying = none ∧ (applyingIn .home).apply.applying = some (0, .home) ∧
      ((applyingIn .home).slot 0).cursor = some 0 ∧ (applyingIn .home).pool[0] = some entry0 ∧
      (∀ j : Fin 96, (applyingIn .home).pool[j].isSome → j = 0)) ∧
    ((applyingIn .retire).apply.applying = some (0, .retire) ∧ (applyingIn .retire).region.isSome ∧
      ((applyingIn .retire).slot 0).position = some 0) ∧
    (base.scanner.activity = .idle ∧ (scanning [] []).region.isSome ∧ (scanning [] []).scanner.activity = .scanning) ∧
    ((replaying [(0xF0110000, 250)] (.read 0)).scanner.activity = .replaying ((0xF0110000, 250) :: []) ∧
      (replaying [] (.read 0)).scanner.activity = .replaying [] ∧ (replaying [] (.read 0)).scanner.chosen.isSome) :=
  ⟨⟨rfl, fun _ => rfl⟩, by decide +kernel, by decide +kernel, by decide +kernel, by decide +kernel, by decide +kernel,
    by decide +kernel⟩

/-- A QUEUED head slot with no room in the ring. -/
def crowded (noted : Bool) : State :=
  { queued with region := some { base := 0x120000, size := 1024 }
                journal := { queued.journal with head := 1008, tail := 16, fill := 992, ringWait := noted } }

theorem witness_SettleAfterACompletion :
    (((crowded false).journal.commitQueue = [0] ∧ (crowded false).sealReadyButSpace 0 = true ∧
      (crowded false).spaceReady 0 = false ∧ (crowded false).journal.ringWait = false) ∧
    ((crowded true).journal.commitQueue = [0] ∧ (crowded true).journal.ringWait = true) ∧
    (queued.journal.commitQueue = [0] ∧ queued.spaceReady 0 = true)) ∧
    (base.journal.commitQueue = [] ∧ base.mp.warning = false) ∧
    (∃ s : State, s.mp.warning = true ∧ s.mp.inFlight ≠ none) ∧
    (∀ held ∈ [none, some (read6 true), some (read6 false)], ∀ op ∈ [OperatingState.running, .reloading], ∃ s : State,
      s.mp.warning = true ∧ s.mp.inFlight = none ∧ s.op = op ∧ s.held = held) :=
  ⟨by decide +kernel, by decide +kernel,
    ⟨{ draining with mp := { draining.mp with warning := true } }, by decide +kernel⟩,
    fun held _ op _ => ⟨{ base with mp := { base.mp with warning := true }, held, op }, rfl, rfl, rfl, rfl⟩⟩

/-- With a warning pending, the ring-space wait is found before the port is QUIESCED (R118, R128, R151); a completion in
RELOADING ends RELOAD's wait (R174). -/
theorem test_settle :
    let s := { crowded false with mp := { base.mp with warning := true } }
    (s.settle.flag .ringWait = true ∧ s.settle.mp.port = .quiesced) ∧
    (after .drainWriteCompletion { draining with op := .reloading }).op = .loading := by decide +kernel

theorem witness_PowerFailWarning :
    (base.power = .up ∧ base.mp.port = .active ∧ base.mp.warning = false ∧ base.mp.inFlight = none ∧ base.held = none) ∧
    (∃ s : State, s.power = .up ∧ s.mp.port = .active ∧ s.mp.warning = false ∧ s.mp.inFlight = none ∧
      s.held = some (read6 false)) ∧
    (draining.power = .up ∧ draining.mp.port = .active ∧ draining.mp.inFlight ≠ none) ∧
    (∃ s : State, s.power = .up ∧ s.mp.port = .quiesced) :=
  ⟨by decide +kernel, ⟨{ base with held := some (read6 false) }, by decide +kernel⟩, by decide +kernel,
    ⟨{ base with mp := { base.mp with port := .quiesced } }, by decide +kernel⟩⟩

theorem witness_RamChangesOnlyByTheWriteInFlight : draining.mem.wf = true := by decide +kernel

theorem witness_DrainRemovesTheHead :
    draining.posted.entries = [{ posted0 with writing := true }] ∧
    draining.mp.inFlight = some { requester := .rotor .drain, op := .write 0x050000 15 1 } ∧
    (draining.source 2).completion = some { notice := .flush [40] [], status := .waiting } := by decide +kernel

/-- The counter at its highest number, nothing sealed. -/
def wrapping : State := { queued with journal := { queued.journal with seqCounter := 4294967295 } }

/-- The head so near the ring end that a record of 32 bytes needs a pad of 16. -/
def padding (fill : Nat) : State :=
  { queued with region := some { base := 0x120000, size := 1024 }
                journal := { queued.journal with head := 1008, tail := (1008 + 1024 - fill) % 1024, fill } }

theorem witness_SealBegins :
    (∀ s ∈ [queued, wrapping, padding 0, padding 976], s.journal.commitQueue = [0] ∧ s.power = .up ∧ s.op = .running ∧
      s.mp.port = .active ∧ (∀ j, (s.slot j).state ≠ .sealing) ∧ s.posted.barriers[0] = some .met ∧
      (s.journal.seqCounter ≠ 4294967295 ∨ s.apply.queue = [] ∧ s.apply.applying = none) ∧ s.region.isSome) ∧
    (placementSize (queued.slotLen 0) = 32 ∧ 32 ≤ 16384 - queued.journal.head ∧ queued.journal.fill + 32 ≤ 16384) ∧
    (1024 - (padding 976).journal.head < 32 ∧ (padding 976).journal.fill + 16 + 32 ≤ 1024) ∧
    (padding 0).journal.fill = 0 := by decide +kernel

theorem witness_SealBegins_not :
    (base.journal.commitQueue = [] ∧ State.reset.region = none) ∧
    (∀ s ∈ [{ queued with power := .inReset }, { queued with op := .unconfigured },
        { queued with mp := { base.mp with port := .quiesced } }, { queued with slots := queued.slots.set 2 (slot0 .sealing) },
        { queued with posted := base.posted }, { wrapping with apply := { queue := [2], applying := none } }, crowded false,
        { padding 0 with journal := { queued.journal with head := 992, tail := 0, fill := 1024 } }],
      s.journal.commitQueue = [0] ∧ s.region.isSome ∧ s.sealConditions 0 = false) := by decide +kernel

theorem witness_RecordIsReadBackAsWritten :
    (queued.slot 0).owner = some 4 ∧ (queued.stagedList 0) = [entry0] ∧
    ∀ e ∈ queued.stagedList 0, e.word.toNat % 4 = 0 := by decide +kernel

theorem witness_SealWordsAndTheCommitPoint :
    (lastSealWord.mp.inFlight = some { requester := .rotor .sealer, op := .write 0x120018 15 0xFFFFFFFE } ∧
      lastSealWord.journal.sealWrites = (0x120018, 0xFFFFFFFE) :: []) ∧
    ((lastSealWord.slot 0).state = .sealing ∧ (∀ j, (lastSealWord.slot j).state = .sealing → j = 0) ∧
      (lastSealWord.slot 0).owner = some 4 ∧ (lastSealWord.slot 0).seqNo = some 1 ∧
      lastSealWord.apply = { queue := [], applying := none }) ∧
    (∃ s : State, s.mp.inFlight = some { requester := .rotor .sealer, op := .write 0x120018 15 0xFFFFFFFE } ∧
      s.journal.sealWrites = (0x120018, 0xFFFFFFFE) :: [] ∧ (s.slot 0).state = .sealing ∧
      (∀ j, (s.slot j).state = .sealing → j = 0) ∧ (s.slot 0).owner = some 4 ∧ (s.slot 0).seqNo = some 1 ∧
      s.apply.applying = some (2, .home)) ∧
    (∃ s : State, s.mp.inFlight = some { requester := .rotor .sealer, op := .write 0x120000 15 0xA5C30101 } ∧
      s.journal.sealWrites = (0x120000, 0xA5C30101) :: [(0x120004, 1)]) :=
  ⟨by decide +kernel, by decide +kernel,
    ⟨{ lastSealWord with apply := { queue := [3], applying := some (2, .home) } }, by decide +kernel⟩,
    ⟨inFlight { queued with journal := { queued.journal with sealWrites := [(0x120000, 0xA5C30101), (0x120004, 1)] } }
      (.rotor .sealer) (.write 0x120000 15 0xA5C30101), by decide +kernel⟩⟩

theorem witness_ApplyWritesAndRetirement_home :
    let s := inFlight (applyingIn .home) (.rotor .apply) (.write 0x110000 15 250)
    let t := { s with pool := s.pool.set 1 (some { entry0 with word := 0x110004, position := 1 }) }
    (s.apply.applying = some (0, .home) ∧ (s.slot 0).cursor = some 0 ∧ s.slotLen 0 ≤ 0 + 1 ∧
      s.mp.inFlight = some { requester := .rotor .apply, op := .write 0x110000 15 250 }) ∧
    (t.apply.applying = some (0, .home) ∧ (t.slot 0).cursor = some 0 ∧ 0 + 1 < t.slotLen 0 ∧
      t.mp.inFlight = some { requester := .rotor .apply, op := .write 0x110000 15 250 }) := by decide +kernel

theorem witness_ApplyWritesAndRetirement_retire :
    let s := inFlight (applyingIn .retire) (.rotor .apply) (.write 0x120000 15 0xA5C30201)
    let t := { s with apply := { queue := [3], applying := some (0, .retire) }
                      slots := s.slots.set 3 { slot0 .sealed with position := some 0 }
                      journal := { s.journal with head := 48, tail := 992, fill := 80 } }
    (s.apply.applying = some (0, .retire) ∧ 0 ∉ s.apply.queue ∧ s.region = some { base := 0x120000, size := 16384 } ∧
      (s.slot 0).position = some 0 ∧ (s.slot 0).recordSize = some 32 ∧ s.apply.queue = [] ∧
      s.mp.inFlight = some { requester := .rotor .apply, op := .write 0x120000 15 0xA5C30201 }) ∧
    (t.apply.applying = some (0, .retire) ∧ 0 ∉ t.apply.queue ∧ t.apply.queue = [3] ∧ (t.slot 3).position = some 0 ∧
      0 < t.journal.fill - 32) := by decide +kernel

theorem witness_RingRelationIsKept :
    (let j := { base.journal with head := 896, tail := 640, fill := 256 }
     j.head < 1024 ∧ j.tail < 1024 ∧ j.fill ≤ 1024 ∧ j.head = (j.tail + j.fill) % 1024 ∧ j.fill + (1024 - 896) + 288 ≤ 1024) ∧
    (let j := { base.journal with head := 576, tail := 640, fill := 960 }
     j.head = (j.tail + j.fill) % 1024 ∧ 256 ≤ j.fill ∧ j.tail + 256 ≤ 1024 ∧ 0 < j.fill - 256 ∧
      1024 - (j.tail + 256) ≤ j.fill - 256) := by decide +kernel

theorem witness_LinkReset : filling.power = .up ∧ State.reset.power ≠ .up := by decide +kernel

theorem witness_Reload_item :
    (∀ op ∈ [OperatingState.loading, .recovering, .reloading], ({ base with op } : State).power = .up) ∧
    (base.power = .up ∧ base.op = .running ∧ base.apply.queue = [] ∧ base.apply.applying = none ∧
      base.posted.entries = [] ∧ (∀ k, (base.slot k).state ≠ .sealing) ∧ base.cl.op = none ∧ base.mp.port = .active) ∧
    posting.posted.entries ≠ [] ∧ (linking (.read 5)).cl.op ≠ none ∧ ({ base with op := .unconfigured } : State).power = .up :=
  by decide +kernel

theorem witness_Reload_wait :
    (∃ s : State, s.op = .reloading ∧ s.guardsCleared = false ∧ s.posted.entries ≠ []) ∧
    (∃ s : State, s.op = .reloading ∧ s.guardsCleared = false ∧ s.drained = true ∧ s.mp.port = .quiesced) ∧
    (∃ s : State, s.op = .reloading ∧ s.guardsCleared = false ∧ s.cl.op ≠ none ∧ s.drained = true ∧ s.mp.port = .active) ∧
    (∃ s : State, s.op = .reloading ∧ s.guardsCleared = false ∧ s.cl.op = none ∧ s.drained = true ∧ s.mp.port = .active) ∧
    (∃ s : State, s.op = .reloading ∧ s.guardsCleared = true ∧ s.cl.op ≠ none) ∧
    (∃ s : State, s.op = .reloading ∧ s.guardsCleared = true ∧ s.cl.op = none) :=
  ⟨⟨{ posting with op := .reloading }, by decide +kernel⟩,
    ⟨{ base with op := .reloading, mp := { base.mp with port := .quiesced } }, by decide +kernel⟩,
    ⟨{ linking (.read 5) with op := .reloading }, by decide +kernel⟩, ⟨{ base with op := .reloading }, by decide +kernel⟩,
    ⟨{ linking (.read 5) with op := .reloading, guardsCleared := true }, by decide +kernel⟩,
    ⟨{ base with op := .reloading, guardsCleared := true }, by decide +kernel⟩⟩

/-- A header word of the two low bytes `b1 b0` at offset 0 of the ring, after the marker. -/
def headerAt (b1 b0 : Byte) : State :=
  scanning [] [(0x120000, b0), (0x120001, b1), (0x120002, 0xC3), (0x120003, 0xA5)]

/-- What the claim's clauses on a header ask of `headerAt b1 b0`, and the bytes its clauses tell apart. -/
def headerMeets (b1 b0 : Byte) : Bool :=
  let s := headerAt b1 b0
  decide (s.region = some { base := 0x120000, size := 1024 } ∧ s.scanner.activity = .scanning ∧ s.scanner.buffer = [] ∧
    s.scanner.pass = 1 ∧
    s.mp.inFlight = some { requester := .scanner, op := .read 0x120000 } ∧
    (s.mem.readWord 0x120000).extractLsb' 16 16 = 0xA5C3#16 ∧ (s.mem.readWord 0x120000).extractLsb' 8 8 = b1 ∧
    (s.mem.readWord 0x120000).extractLsb' 0 8 = b0)

theorem witness_RecoveryJudgesAHeader :
    (headerMeets 3 2 = true ∧ headerMeets 4 1 = true ∧ headerMeets 1 0 = true ∧ headerMeets 1 33 = true ∧
      headerMeets 1 1 = true ∧ headerMeets 2 32 = true) ∧
    ((scanning [] []).mp.inFlight = some { requester := .scanner, op := .read 0x120000 } ∧
      ((scanning [] []).mem.readWord 0x120000).extractLsb' 16 16 ≠ 0xA5C3#16) ∧
    (0 + placementSize 32 ≤ 1024 ∧ 1024 < 992 + placementSize 32) ∧
    ({ headerAt 1 1 with scanner := { (headerAt 1 1).scanner with pass := 2, offset := 1008 } } : State).scanner.pass ≠ 1 := by
  decide +kernel

/-- The words of the record of `test_beginningOfSeal` but the last, and that state. -/
def candidate (ws : List Word) : State := scanning ws recordMem

theorem witness_RecoveryJudgesACandidate :
    let w6 : List Word := [0xA5C30101, 1, 0x02010004, 0xF0110000, 250,
      ~~~ (0xA5C30101 + 1 + 0x02010004 + 0xF0110000 + 250)]
    let bad : List Word := [0xA5C30101, 1, 0x02010004, 0xF0110000, 250, 0]
    (∀ ws ∈ [[0xA5C30101], w6, bad], (candidate ws).region = some { base := 0x120000, size := 1024 } ∧
      (candidate ws).scanner.activity = .scanning ∧ (candidate ws).scanner.buffer = 0xA5C30101 :: ws.drop 1 ∧
      (candidate ws).mp.inFlight =
        some { requester := .scanner, op := .read (BitVec.ofNat 24 (0x120000 + 4 * ws.length)) }) ∧
    (headerCount 0xA5C30101 = 1 ∧ [(0xA5C30101 : Word), 1].length < 5 + 2 * 1) ∧
    (recordValid 1 (w6 ++ [recordMem.readWord 0x120018]) = true ∧ placementSize 1 = 32) ∧
    recordValid 1 (bad ++ [recordMem.readWord 0x120018]) = false := by decide +kernel

theorem witness_EndOfAPassAndReplay :
    (∃ (s : State) (c : ChosenRecord), s.scanner.chosen = some c) ∧
    (∃ s : State, s.scanner.chosen = none ∧ s.scanner.damage = false) ∧
    (∃ s : State, s.scanner.chosen = none ∧ s.scanner.damage = true ∧ s.scanner.highest = some 4294967295) ∧
    (let s := replaying [(0xF0110000, 250)] (.write 0x110000 15 250)
     s.mp.inFlight = some { requester := .scanner, op := .write 0x110000 15 250 } ∧
      s.scanner.activity = .replaying ((0xF0110000, 250) :: [])) ∧
    (let s := replaying [] (.write 0x120000 15 0xA5C30201)
     s.mp.inFlight = some { requester := .scanner, op := .write 0x120000 15 0xA5C30201 } ∧
      s.scanner.activity = .replaying [] ∧
      s.scanner.chosen = some { offset := 0, seqNo := 61, count := 1, origin := 0x01010004, entries := [(0xF0110000, 250)] }) :=
  ⟨⟨replaying [] (.read 0), _, rfl⟩, ⟨base, by decide +kernel⟩,
    ⟨{ base with scanner := { Scanner.idle with damage := true, highest := some 4294967295 } }, by decide +kernel⟩,
    by decide +kernel, by decide +kernel⟩

theorem witness_EepromAnswers (op : LinkOp) :
    (linking op).cl.op = some op ∧ LinkOp.polledCell (.read 5) = none ∧ LinkOp.polledCell (.write 5 1 .sending) = none ∧
    (0 < 20000 ∧ 19999 < 20000) ∧
    ((Instr.pollingWindowExpiry = .pollingWindowExpiry ∧ 20000 ≤ 19999 + 1) ∧
      (Instr.acknowledgePollingEnd = .acknowledgePollingEnd ∧ 20000 ≤ 20000)) :=
  ⟨rfl, by decide +kernel⟩

theorem witness_ItemsThatActAtOnce :
    base.power = .up ∧ (7 : Byte).toNat = (7 : WindowId).val ∧ (1 : Byte).toNat ≤ 1 ∧ 8 ≤ (8 : Byte).toNat ∧
    2 ≤ (2 : Byte).toNat := by decide +kernel

theorem witness_AlertMaskIsReadAndWritten : base.power = .up ∧ State.reset.power ≠ .up := by decide +kernel

/-- The Management Link in use, with an item selected. -/
def selecting (selected : Item) : State := { base with ml := { base.ml with selected } }

theorem witness_ManagementLinkShows :
    State.reset.power ≠ .up ∧
    (∀ item, (selecting item).power = .up ∧ (selecting item).ml.selected = item) ∧
    ((selecting .lastFault).ml.lastFault = none ∧ (selecting .lastEnd).ml.lastEnd = none) ∧
    (∃ (s : State) (r : FaultRecord), s.power = .up ∧ s.ml.selected = .lastFault ∧ s.ml.lastFault = some r) ∧
    (∀ outcome ∈ [EndOutcome.sealed 1, .replayed 61, .discarded 7, .discardedReset, .aborted .nested], ∃ s : State,
      s.power = .up ∧ s.ml.selected = .lastEnd ∧ s.ml.lastEnd = some { slot := 2, source := 5, outcome }) :=
  ⟨by decide +kernel, fun _ => ⟨rfl, rfl⟩, ⟨rfl, rfl⟩,
    ⟨{ selecting .lastFault with ml := { (selecting .lastFault).ml with
        lastFault := some { source := 3, kind := .write, addr := 0x011002, code := .align } } }, _, rfl, rfl, rfl⟩,
    fun outcome _ => ⟨{ selecting .lastEnd with ml := { (selecting .lastEnd).ml with
        lastEnd := some { slot := 2, source := 5, outcome } } }, rfl, rfl, rfl⟩⟩

theorem witness_WriteTransactionSelects :
    base.power = .up ∧ Item.ofNumber 0x77 = none ∧ Item.ofNumber 0x42 = some .eepromResult ∧
    Item.commandLength .eepromResult = none ∧ Item.ofNumber 0x41 = some .eepromWrite ∧
    Item.commandLength .eepromWrite = some 2 ∧ [(1 : Byte)].length < 2 ∧ Item.ofNumber 0x03 = some .alertMask ∧
    Item.commandLength .alertMask = some 2 ∧ [(1 : Byte)] ≠ [] := by decide +kernel

theorem witness_LinkItemsBeginOrAreRefused :
    (base.power = .up ∧ base.ml.guardLock = false ∧ base.cl.op = none ∧ base.op ≠ .loading) ∧
    (loading.power = .up ∧ loading.op = .loading ∧ loading.ml.guardLock = false) ∧
    ((linking (.read 5)).power = .up ∧ (linking (.read 5)).cl.op ≠ none) ∧
    (∃ s : State, s.power = .up ∧ s.ml.guardLock = true) ∧
    ((7 : Byte).toNat = (7 : WindowId).val ∧ 8 ≤ (8 : Byte).toNat ∧ 2 ≤ (2 : Byte).toNat) :=
  ⟨by decide +kernel, by decide +kernel, by decide +kernel,
    ⟨{ base with ml := { base.ml with guardLock := true } }, by decide +kernel⟩, by decide +kernel⟩

theorem witness_FlagsCountersAndLockPersist :
    Instr.lockGuards ≠ .powerOnReset ∧ Instr.lockGuards ≠ .powerLoss ∧ (∀ m, Instr.lockGuards ≠ .clearFlags m) ∧
    (∀ b, Instr.lockGuards ≠ .managementWriteTransaction b) ∧ ∃ t : State, exec .lockGuards base = .next t := by
  refine ⟨by decide, by decide, fun m h => (by cases h), fun b h => (by cases h), _, rfl⟩

theorem pool_of_filling (i : Fin 96) (e : StagingEntry) (h : filling.pool[i] = some e) : i = 0 ∧ e = entry0 := by
  by_cases hi : i = 0
  · subst hi
    refine ⟨rfl, ?_⟩
    have : filling.pool[(0 : Fin 96)] = some entry0 := by decide +kernel
    rw [this] at h; cases h; rfl
  · exfalso
    have hv : (0 : Nat) ≠ i.val := fun h => hi (Fin.ext h.symm)
    have e0 : filling.pool[i] = base.pool[i] := by
      simp [filling, Fin.getElem_fin, hv]
    exact pool_of_base i e (e0 ▸ h)

/-- An open group that meets every law, the claims with it. -/
theorem witness_StepKeeps_laws :
    MemoriesCanonical filling ∧ PortSound filling ∧ QueueBounded filling ∧ RingSound filling ∧ ClaimsSound filling ∧
    ReservationsSound filling ∧ TableSound filling ∧ ∃ t : State, step filling = .next t := by
  refine ⟨by unfold MemoriesCanonical; decide +kernel, by unfold PortSound; decide +kernel,
    by unfold QueueBounded; decide +kernel, ⟨fun r _ => Nat.zero_le _, by decide +kernel⟩, ⟨?_, ?_⟩,
    ⟨by decide +kernel, by decide +kernel, ?_, by decide +kernel⟩, tableSound_base, _, rfl⟩
  · intro i j e f hi hj _
    rw [(pool_of_filling i e hi).1, (pool_of_filling j f hj).1]
  · intro i e h
    rw [(pool_of_filling i e h).2]; decide +kernel
  · intro k hk
    have h0 : ∀ k : SlotId, (filling.slot k).state = .filling → k = 0 := by decide +kernel
    rw [h0 k hk]
    exact ⟨0, by decide +kernel, by decide +kernel⟩

theorem witness_StepKeepsGroupsSound : GroupsSound filling := by
  refine ⟨?_, ?_, ⟨by decide +kernel, by decide +kernel⟩, ⟨by decide +kernel, by decide +kernel⟩, ?_, by decide +kernel⟩
  · decide +kernel
  · decide +kernel
  · intro k
    have h : ∀ k : SlotId, (filling.slot k).state ≠ .applying := by decide +kernel
    have a : filling.apply.applying = none := rfl
    simp [h k, a]

/-- A drain write in flight, as its law asks. -/
theorem witness_StepKeepsTheFlightSound : FlightSound draining ∧ GroupsSound draining := by
  have link : ∀ src, (draining.source src).link = none := by decide +kernel
  have free : ∀ k, (draining.slot k).state = .free := by decide +kernel
  have op : draining.mp.inFlight = some { requester := .rotor .drain, op := .write 0x050000 15 1 } := rfl
  have a : draining.apply.applying = none := rfl
  refine ⟨⟨?_, ?_, ⟨?_, ?_⟩, ?_, ?_, ?_, ?_⟩, ?_, ?_, ⟨by decide +kernel, by decide +kernel⟩,
    ⟨by decide +kernel, by decide +kernel⟩, ?_, by decide +kernel⟩
  · intro o h; rw [op] at h; cases h
  · intro o h; rw [op] at h; cases h; exact ⟨{ posted0 with writing := true }, [], rfl, rfl, rfl⟩
  · intro o h; rw [op] at h; cases h
  · simp [free, show draining.journal.sealWrites = [] from rfl]
  · intro o h; rw [op] at h; cases h
  · intro o h; rw [op] at h; cases h
  · intro h; exact absurd rfl h
  · intro h; exact absurd rfl h
  · intro src k h; rw [link] at h; cases h
  · intro k h; rw [free] at h; cases h
  · intro k; simp [free k, a]

end Sys2Proof.Machine.Tests
end

section
/-! SUPPORT. Marks that open and end a group without a commit: the OPEN of an illegal count (R29) and the DISCARD
(R47 to R49). First the rules about the shared operations that these proofs use, then the three answers of a DISCARD,
then the claims. -/

namespace Sys2Proof.Machine

section

variable (s : State)

/-! ### Requests that are judged -/

/-- A request that reaches a serving part, and is no WRITE, is judged at once (R1, R3). -/
theorem Serving.request_eq {s : State} (h : Serving s) {kind : RequestKind} (hkind : kind ≠ .write) (src : Source)
    (addr : Addr) (judge : State → State) : s.quiet.request src kind addr judge = judge s.quiet := by
  obtain ⟨hpower, hop, hport, hlrst, hheld⟩ := h
  have takes : s.quiet.busWaits (decide (kind = .write)) = false := by
    simp [State.busWaits, hkind, hpower, hlrst, hheld]
  simp [State.request, takes, hport, hop]

/-- An OPEN that reaches a serving part is judged (R28). -/
theorem Serving.exec_openMark {s : State} (h : Serving s) (src : Source) (count : Byte) :
    exec (.openMark src count) s = .next (s.quiet.judgeOpen src count) :=
  congrArg Host.Outcome.next (h.request_eq (by decide) src 0 _)

/-- A DISCARD that reaches a serving part is judged (R47). -/
theorem Serving.exec_discardMark {s : State} (h : Serving s) (src : Source) (reason : Byte) :
    exec (.discardMark src reason) s = .next (s.quiet.judgeDiscard src reason) :=
  congrArg Host.Outcome.next (h.request_eq (by decide) src 0 _)

/-! ### The Source Table -/

/-- Of two entries put for one source the later stands. -/
@[simp] theorem State.setSource_setSource (i : Source) (e f : SourceEntry) :
    (s.setSource i e).setSource i f = s.setSource i f := by
  simp [State.setSource]

@[simp] theorem State.clearHold_source_self (i : Source) :
    (s.clearHold i).source i = { s.source i with hold := none } :=
  s.setSource_source_self i _

/-- A source without a hold record has none to clear. -/
theorem State.clearHold_of_none {src : Source} (h : (s.source src).hold = none) : s.clearHold src = s := by
  rw [State.clearHold, ← h, State.setSource_source_eq]

/-- The held request is an OPEN of this count exactly when it is that request. -/
theorem HeldRequest.isOpenOf_iff {count : Byte} {r : HeldRequest} : r.isOpenOf count = true ↔ r = .openMark count := by
  cases r <;> simp [HeldRequest.isOpenOf]

/-- The request that is held leaves the hold record as it is (R71). -/
theorem State.compareHold_of_same {src : Source} {same : HeldRequest → Bool} {h : Hold}
    (hold : (s.source src).hold = some h) (hsame : same h.request = true) : s.compareHold src same = s := by
  simp [State.compareHold, hold, hsame]

/-- A request that is not the held one clears the hold record, if there is one (R71). -/
theorem State.compareHold_of_different {src : Source} {same : HeldRequest → Bool}
    (hdiff : ∀ h : Hold, (s.source src).hold = some h → same h.request = false) :
    s.compareHold src same = s.clearHold src := by
  cases hold : (s.source src).hold with
  | none => simp [State.compareHold, hold, s.clearHold_of_none hold]
  | some h => simp [State.compareHold, hold, hdiff h hold]

/-! ### The release of a slot's entries -/

/-- What a release leaves of the Staging Pool is read through the pool alone. -/
theorem State.releaseEntries_pool_congr {s t : State} (h : t.pool = s.pool) (k : SlotId) :
    (t.releaseEntries k).pool = (s.releaseEntries k).pool := by
  simp only [State.releaseEntries, h]

/-- The entries that stay after a release are those of the other slots (R66 to R68). -/
theorem State.releaseEntries_entry_iff (k : SlotId) (i : Fin 96) (e : StagingEntry) :
    (s.releaseEntries k).pool[i] = some e ↔ s.pool[i] = some e ∧ e.slot ≠ k := by
  rw [State.releaseEntries_entry]
  cases hi : s.pool[i] with
  | none => simp [ownedBy]
  | some f =>
    by_cases hf : f.slot = k
    · simp only [ownedBy, hf, decide_true, if_true]
      constructor
      · intro h; cases h
      · rintro ⟨h, hne⟩; cases h; exact absurd hf hne
    · simp only [ownedBy, hf, decide_false, Bool.false_eq_true, if_false]
      constructor
      · intro h; cases h; exact ⟨rfl, hf⟩
      · exact And.left

/-- The release of a slot that has no entries changes nothing. -/
theorem State.releaseEntries_of_no_entry {k : SlotId}
    (h : ∀ (i : Fin 96) (e : StagingEntry), s.pool[i] = some e → e.slot ≠ k) : s.releaseEntries k = s := by
  have pool : (s.releaseEntries k).pool = s.pool := by
    refine Vector.ext fun i hi => Option.ext fun e => ?_
    exact (s.releaseEntries_entry_iff k ⟨i, hi⟩ e).trans (and_iff_left_of_imp (h ⟨i, hi⟩ e))
  calc s.releaseEntries k = { s with pool := (s.releaseEntries k).pool } := rfl
    _ = s := by rw [pool]

/-- Under sound claims a slot whose state keeps none has no entries (R60). -/
theorem ClaimsSound.no_entry {s : State} (h : ClaimsSound s) {k : SlotId} (hk : (s.slot k).state.claims = false)
    (i : Fin 96) (e : StagingEntry) (he : s.pool[i] = some e) : e.slot ≠ k := by
  rintro rfl
  exact Bool.false_ne_true (hk.symm.trans (h.2 i e he))

/-! ### OPEN of an illegal count -/

/-- An OPEN from a source with no link is judged, its hold record compared, as a fresh one (R28, R71). -/
theorem State.judgeOpen_of_unlinked {src : Source} {count : Byte} (link : (s.source src).link = none) :
    s.judgeOpen src count = (s.compareHold src (HeldRequest.isOpenOf count)).openFresh src count := by
  have link' : ((s.compareHold src (HeldRequest.isOpenOf count)).source src).link = none := by
    obtain ⟨h, eq⟩ := s.compareHold_eq src (HeldRequest.isOpenOf count)
    rw [eq, State.setSource_source_self]
    exact link
  simp [State.judgeOpen, link']

/-- A fresh OPEN of an illegal count is refused before anything is abandoned or taken (R29). -/
theorem State.openFresh_of_illegal {count : Byte} (h : count.toNat = 0 ∨ 33 ≤ count.toNat) (src : Source) :
    s.openFresh src count = s.replyFault src .openMark 0 .count :=
  if_pos h

/-! ### The judgement of a DISCARD -/

/-- A DISCARD from a source with no link is refused (R49). -/
theorem State.judgeDiscard_of_unlinked {src : Source} {reason : Byte} (link : (s.source src).link = none) :
    s.judgeDiscard src reason = s.refuse src .discard 0 .noGroup := by
  simp [State.judgeDiscard, State.refuse, link]

/-- The slot that a DISCARD frees, with its entries; the source's link and hold record are cleared (R47, R48). -/
def State.discardSlot (src : Source) (k : SlotId) : State := ((s.clearHold src).freeSlot k).setLink src none

/-- What the freeing of a discarded slot changes: one Source Table entry, one slot, the slot's staged entries. -/
theorem State.discardSlot_eq (src : Source) (k : SlotId) :
    s.discardSlot src k =
      { s.setSource src { s.source src with hold := none, link := none } with
        slots := s.slots.set k Slot.empty, pool := (s.releaseEntries k).pool } := by
  have entry : ((s.clearHold src).freeSlot k).source src = { s.source src with hold := none } :=
    (State.source_congr ((s.clearHold src).freeSlot_sources k) src).trans (s.clearHold_source_self src)
  rw [State.discardSlot, State.setLink, entry, State.freeSlot_eq,
    State.releaseEntries_pool_congr (s.clearHold_pool src), ← s.setSource_setSource src { s.source src with hold := none }]
  rfl

/-- A DISCARD of a FILLING or READY group frees its slot, and the end is counted and recorded (R47). -/
theorem State.judgeDiscard_of_open {src : Source} {k : SlotId} (link : (s.source src).link = some k)
    (state : (s.slot k).state = .filling ∨ (s.slot k).state = .ready) (reason : Byte) :
    s.judgeDiscard src reason =
      (((s.discardSlot src k).count .discardedGroups).recordEnd k ((s.slot k).owner.getD 0)
        (.discarded reason)).reply src (.done 0) := by
  have slot : (s.clearHold src).slot k = s.slot k := rfl
  obtain state | state := state <;> simp [State.judgeDiscard, State.discardSlot, link, slot, state]

/-- A DISCARD of an ABORTED group frees its slot and answers the abort cause (R48). -/
theorem State.judgeDiscard_of_aborted {src : Source} {k : SlotId} {cause : AbortCause}
    (link : (s.source src).link = some k) (state : (s.slot k).state = .aborted) (hcause : (s.slot k).cause = some cause)
    (reason : Byte) :
    s.judgeDiscard src reason = (s.discardSlot src k).reply src (.done (cause.toByte.setWidth 32)) := by
  have slot : (s.clearHold src).slot k = s.slot k := rfl
  simp [State.judgeDiscard, State.discardSlot, link, slot, state, hcause, lane0]

end

/-! ### The claims -/

/-- Settles O28: with no link the DISCARD is refused, and the hold record goes with the refusal. -/
theorem discardWithoutAGroup : Obligations.DiscardWithoutAGroup := by
  intro s src reason serving link
  rw [serving.exec_discardMark, State.judgeDiscard_of_unlinked s.quiet link]
  rfl

/-- Settles O20: the hold comparison decides whether the hold record stays, then the count is refused first of all. -/
theorem illegalCountIsFaulted : Obligations.IllegalCountIsFaulted := by
  intro s src n serving link illegal faulted
  have judged : exec (.openMark src n) s =
      .next ((s.quiet.compareHold src (HeldRequest.isOpenOf n)).replyFault src .openMark 0 .count) := by
    rw [serving.exec_openMark, State.judgeOpen_of_unlinked s.quiet link, State.openFresh_of_illegal _ illegal]
  refine ⟨fun h hold request => ?_, fun different => ?_⟩
  · rw [judged, State.compareHold_of_same s.quiet hold (HeldRequest.isOpenOf_iff.2 request)]
    rfl
  · have differs : ∀ h : Hold, (s.quiet.source src).hold = some h → h.request.isOpenOf n = false :=
      fun h hold => Bool.eq_false_iff.2 fun same => different h hold (HeldRequest.isOpenOf_iff.1 same)
    rw [judged, State.compareHold_of_different s.quiet differs]
    rfl

/-- Settles O26: the slot is freed, the end counted and recorded; the entries that stay are the other slots'. -/
theorem discardFreesAnOpenGroup : Obligations.DiscardFreesAnOpenGroup := by
  intro s src reason k serving link state owner
  have owner' : (s.quiet.slot k).owner.getD 0 = src := by
    rw [State.slot_congr s.quiet_slots k, owner, Option.getD_some]
  refine ⟨_, serving.exec_discardMark src reason, ?_⟩
  rw [State.judgeDiscard_of_open s.quiet link state, owner', State.discardSlot_eq]
  exact ⟨rfl, s.releaseEntries_entry_iff k⟩

/-- Settles O27: under sound claims an ABORTED slot has no entries, so the Staging Pool stays. -/
theorem discardReportsTheAbortCause : Obligations.DiscardReportsTheAbortCause := by
  intro s src reason k cause serving claims link state hcause
  have pool : s.quiet.releaseEntries k = s.quiet :=
    State.releaseEntries_of_no_entry s.quiet (claims.no_entry (by rw [state]; rfl))
  rw [serving.exec_discardMark, State.judgeDiscard_of_aborted s.quiet link state hcause, State.discardSlot_eq, pool]
  rfl

end Sys2Proof.Machine
end

section
/-! SUPPORT. The ALERT-MASK item: what a write transaction with a command item comes to, what a read of the mask
returns, then the claim. -/

namespace Sys2Proof.Machine

section

variable (s : State)

/-! ### Commands of the Management Link -/

/-- With power, and out of reset, the Management Link acts (R177). -/
theorem State.managed_of_up {s : State} (up : s.power = .up) (act : State → State) : s.managed act = act s :=
  if_pos up

/-- With power a write transaction is taken at its stop (R177). -/
theorem exec_managementWriteTransaction_of_up {s : State} (up : s.power = .up) (bytes : List Byte) :
    exec (.managementWriteTransaction bytes) s = .next (s.quiet.writeTransaction bytes) :=
  congrArg Host.Outcome.next (State.managed_of_up (s := s.quiet) up _)

/-- With power ALERT_MASK writes the mask (R193). -/
theorem exec_alertMask_of_up {s : State} (up : s.power = .up) (mask : BitVec 16) :
    exec (.alertMask mask) s = .next (s.quiet.alertMaskItem mask) :=
  congrArg Host.Outcome.next (State.managed_of_up (s := s.quiet) up _)

/-! ### Write transactions that name a command item -/

/-- The number of ALERT-MASK alone selects it for reading (R193). -/
theorem State.writeTransaction_alertMask_alone {n : Byte} (number : Item.ofNumber n = some .alertMask) :
    s.writeTransaction [n] = s.itemTaken .alertMask .ok := by
  simp [State.writeTransaction, number, Item.commandLength]

/-- A command item with fewer bytes than it has is SHORT, ALERT-MASK alone excepted (R177, R193). -/
theorem State.writeTransaction_of_short {n : Byte} {item : Item} {length : Nat} {rest : List Byte}
    (number : Item.ofNumber n = some item) (command : item.commandLength = some length)
    (notRead : item ≠ .alertMask ∨ rest ≠ []) (short : rest.length < length) :
    s.writeTransaction (n :: rest) = s.setResult .short := by
  have notAlone : ¬ (item = .alertMask ∧ rest = []) := not_and_or.2 notRead
  simp only [State.writeTransaction, number, command, if_neg notAlone, if_pos short]

/-- A command item with its whole length of bytes is acted on (R177). -/
theorem State.writeTransaction_of_whole {n : Byte} {item : Item} {length : Nat} {rest : List Byte}
    (number : Item.ofNumber n = some item) (command : item.commandLength = some length)
    (notRead : item ≠ .alertMask ∨ rest ≠ []) (whole : length ≤ rest.length) :
    s.writeTransaction (n :: rest) = s.commandItem item rest := by
  have notAlone : ¬ (item = .alertMask ∧ rest = []) := not_and_or.2 notRead
  simp only [State.writeTransaction, number, command, if_neg notAlone, if_neg (Nat.not_lt.2 whole)]

/-! ### The mask, written and read -/

/-- The mask item keeps bits 8 to 0 of its operand and is selected with result OK (R180, R193). -/
theorem State.alertMaskItem_eq (mask : BitVec 16) :
    s.alertMaskItem mask =
      { s with ml := { s.ml with alertMask := mask.extractLsb' 0 9, selected := .alertMask, result := .ok } } := by
  rw [State.alertMaskItem, BitVec.setWidth_eq_extractLsb' (by decide)]
  rfl

/-- Nine bits as two bytes, low byte first: bits 7 to 0, then bit 8 (spec/12). -/
theorem lowFirst_two_toNat (m : BitVec 9) :
    lowFirst 2 m.toNat = [m.extractLsb' 0 8, (BitVec.ofBool (m.getLsbD 8)).setWidth 8] := by
  have low : BitVec.ofNat 8 m.toNat = m.extractLsb' 0 8 := by
    rw [BitVec.ofNat_toNat, BitVec.setWidth_eq_extractLsb' (by decide)]
  have high : BitVec.ofNat 8 (m.toNat / 256) = (BitVec.ofBool (m.getLsbD 8)).setWidth 8 := by
    apply BitVec.eq_of_toNat_eq
    have bound := m.isLt
    have bit8 : (m.getLsbD 8).toNat = m.toNat / 256 := by
      rw [BitVec.getLsbD, Nat.toNat_testBit]
      omega
    rw [BitVec.toNat_ofNat, BitVec.toNat_setWidth, BitVec.toNat_ofBool, bit8]
  rw [lowFirst, lowFirst, lowFirst, low, high]

/-- A read transaction with ALERT-MASK selected and result OK returns the mask in use (R177, R193). -/
theorem State.readTransaction_of_alertMask {s : State} (up : s.power = .up) (selected : s.ml.selected = .alertMask)
    (ok : s.ml.result = .ok) :
    s.readTransaction =
      some [0, s.ml.alertMask.extractLsb' 0 8, (BitVec.ofBool (s.ml.alertMask.getLsbD 8)).setWidth 8] := by
  rw [State.readTransaction, if_pos up, selected, ok, State.itemData, lowFirst_two_toNat]
  rfl

end

/-! ### The claim -/

/-- Settles O49: the transaction by the number of its further bytes, and the read of the mask as it stood and as
written. -/
theorem alertMaskIsReadAndWritten : Obligations.AlertMaskIsReadAndWritten := by
  intro s low high more up read written returns
  have number : Item.ofNumber 0x03 = some .alertMask := rfl
  have command : Item.alertMask.commandLength = some 2 := rfl
  have shortLength : [low].length < 2 := Nat.one_lt_two
  have wholeLength : 2 ≤ (low :: high :: more).length := Nat.le_add_left _ _
  have maskWritten : s.quiet.alertMaskItem (high ++ low) = written := s.quiet.alertMaskItem_eq (high ++ low)
  refine ⟨?alone, State.readTransaction_of_alertMask up rfl rfl, ?short, ?whole, ?item,
    State.readTransaction_of_alertMask up rfl rfl⟩
  case alone =>
    rw [exec_managementWriteTransaction_of_up up, State.writeTransaction_alertMask_alone _ number]
    rfl
  case short =>
    rw [exec_managementWriteTransaction_of_up up,
      State.writeTransaction_of_short _ number command (.inr (List.cons_ne_nil _ _)) shortLength]
    rfl
  case whole =>
    rw [exec_managementWriteTransaction_of_up up,
      State.writeTransaction_of_whole _ number command (.inr (List.cons_ne_nil _ _)) wholeLength]
    exact congrArg Host.Outcome.next maskWritten
  case item => rw [exec_alertMask_of_up up, maskWritten]

end Sys2Proof.Machine
end

section
/-! SUPPORT. What a step can do, said once. A command is a chain of moves: either a move that leaves every block alone
that the laws speak of (`Stays`), or one of the events that change a block (`Move`). Each law of every step is then one
case split over the moves. -/

namespace Sys2Proof.Machine

/-! ### What stays -/

/-- The counters do not fall, the flags stay set, and so does the guard lock (R179, R181, R185). -/
structure RecordsGrow (s t : State) : Prop where
  counter : ∀ n, (s.counter n).toNat ≤ (t.counter n).toNat
  flag : ∀ f, s.flag f = true → t.flag f = true
  lock : s.ml.guardLock = true → t.ml.guardLock = true

/-- The windows have the same page ranges, present as before (R8). -/
structure Window.SameRange (v w : Window) : Prop where
  present : w.present = v.present
  base : w.base = v.base
  limit : w.limit = v.limit
  target : w.target = v.target

/-- No block that the laws speak of changes: at most the bus, the lines, the Source Table beside the links, the
Timebase, the guards, the Configuration Link, and the Management Link, whose records grow. -/
structure Stays (s t : State) : Prop where
  pending : t.pending = s.pending
  power : t.power = s.power
  op : t.op = s.op
  guardsCleared : t.guardsCleared = s.guardsCleared
  held : t.held = s.held
  region : t.region = s.region
  slots : t.slots = s.slots
  pool : t.pool = s.pool
  posted : t.posted = s.posted
  journal : t.journal = s.journal
  apply : t.apply = s.apply
  mp : t.mp = s.mp
  scanner : t.scanner = s.scanner
  mem : t.mem = s.mem
  eeprom : t.eeprom = s.eeprom
  range : ∀ i : WindowId, s.windows[i].SameRange t.windows[i]
  link : ∀ i, (t.source i).link = (s.source i).link
  records : RecordsGrow s t

theorem Window.SameRange.refl (w : Window) : w.SameRange w := ⟨rfl, rfl, rfl, rfl⟩

theorem Window.SameRange.trans {u v w : Window} (h : u.SameRange v) (h' : v.SameRange w) : u.SameRange w :=
  ⟨h'.present.trans h.present, h'.base.trans h.base, h'.limit.trans h.limit, h'.target.trans h.target⟩

theorem RecordsGrow.refl (s : State) : RecordsGrow s s := ⟨fun _ => le_rfl, fun _ => id, id⟩

theorem RecordsGrow.trans {s t u : State} (h : RecordsGrow s t) (h' : RecordsGrow t u) : RecordsGrow s u :=
  ⟨fun n => (h.counter n).trans (h'.counter n), fun f => h'.flag f ∘ h.flag f, h'.lock ∘ h.lock⟩

/-- The records are read through the counters, the flags and the lock alone. -/
theorem RecordsGrow.of_eq {s t : State} (counters : t.ml.counters = s.ml.counters) (flags : t.ml.flags = s.ml.flags)
    (lock : t.ml.guardLock = s.ml.guardLock) : RecordsGrow s t :=
  ⟨fun n => by rw [State.counter, State.counter, counters], fun f h => by rwa [State.flag, flags], fun h => by rwa [lock]⟩

theorem RecordsGrow.of_ml {s t : State} (h : t.ml = s.ml) : RecordsGrow s t :=
  .of_eq (by rw [h]) (by rw [h]) (by rw [h])

theorem RecordsGrow.count (s : State) (c : Counter) : RecordsGrow s (s.count c) where
  counter n := by
    rw [State.count_counter]
    split
    · next h => rw [← h]; exact le_saturatingSucc _
    · exact le_rfl
  flag _ := id
  lock := id

theorem RecordsGrow.setFlag (s : State) (f : Flag) : RecordsGrow s (s.setFlag f) where
  counter _ := le_rfl
  flag g h := by rw [State.setFlag_flag, h, Bool.or_true]
  lock := id

namespace Stays

theorem refl (s : State) : Stays s s :=
  ⟨rfl, rfl, rfl, rfl, rfl, rfl, rfl, rfl, rfl, rfl, rfl, rfl, rfl, rfl, rfl, fun _ => .refl _, fun _ => rfl, .refl s⟩

theorem trans {s t u : State} (h : Stays s t) (h' : Stays t u) : Stays s u where
  pending := h'.pending.trans h.pending
  power := h'.power.trans h.power
  op := h'.op.trans h.op
  guardsCleared := h'.guardsCleared.trans h.guardsCleared
  held := h'.held.trans h.held
  region := h'.region.trans h.region
  slots := h'.slots.trans h.slots
  pool := h'.pool.trans h.pool
  posted := h'.posted.trans h.posted
  journal := h'.journal.trans h.journal
  apply := h'.apply.trans h.apply
  mp := h'.mp.trans h.mp
  scanner := h'.scanner.trans h.scanner
  mem := h'.mem.trans h.mem
  eeprom := h'.eeprom.trans h.eeprom
  range i := (h.range i).trans (h'.range i)
  link i := (h'.link i).trans (h.link i)
  records := h.records.trans h'.records

/-- The bus, the lines, the Source Table with its links, the Timebase, the guards, the Configuration Link, the
Management Link and the count of free values may change. -/
theorem of_eq (s : State) {bus : BusOut} {lines : Lines} {sources : Vector SourceEntry 16} {time : Timebase}
    {windows : Vector Window 8} {cl : ConfigLink} {ml : Management} {freeCount : Nat}
    (link : ∀ i : Source, sources[i].link = (s.source i).link := by exact fun _ => rfl)
    (range : ∀ i : WindowId, s.windows[i].SameRange windows[i] := by exact fun _ => .refl _)
    (records : RecordsGrow s { s with ml } := by exact .of_eq rfl rfl rfl) :
    Stays s { s with bus, lines, sources, time, windows, cl, ml, freeCount } :=
  ⟨rfl, rfl, rfl, rfl, rfl, rfl, rfl, rfl, rfl, rfl, rfl, rfl, rfl, rfl, rfl, range, link,
    ⟨records.counter, records.flag, records.lock⟩⟩

variable (s : State)

theorem quiet : Stays s s.quiet := of_eq s
theorem reply (src : Source) (ans : Answer) : Stays s (s.reply src ans) := of_eq s
theorem recordFault (src : Source) (kind : RequestKind) (addr : Addr) (code : FaultCode) :
    Stays s (s.recordFault src kind addr code) := of_eq s
theorem recordEnd (k : SlotId) (src : Source) (o : EndOutcome) : Stays s (s.recordEnd k src o) := of_eq s
theorem sampleGuard (level : Bool) : Stays s (s.sampleGuard level) := of_eq s
theorem itemTaken (item : Item) (result : ItemResult) : Stays s (s.itemTaken item result) := of_eq s
theorem setResult (result : ItemResult) : Stays s (s.setResult result) := of_eq s
theorem setLrst (level : Bool) : Stays s (s.setLrst level) := of_eq s
theorem setPfail (level : Bool) : Stays s (s.setPfail level) := of_eq s
theorem configLink (cl : ConfigLink) : Stays s { s with cl } := of_eq s
theorem setLinkOp (op : LinkOp) : Stays s (s.setLinkOp op) := of_eq s
theorem beginLinkOp (op : LinkOp) : Stays s (s.beginLinkOp op) := of_eq s
theorem count (c : Counter) : Stays s (s.count c) := of_eq s (records := .count s c)
theorem setFlag (f : Flag) : Stays s (s.setFlag f) := of_eq s (records := .setFlag s f)
theorem noteParity : Stays s s.noteParity := (count s _).trans (setFlag _ _)
theorem noteGuardRefusal : Stays s s.noteGuardRefusal := (count s _).trans (setFlag _ _)

theorem replyFault (src : Source) (kind : RequestKind) (addr : Addr) (code : FaultCode) :
    Stays s (s.replyFault src kind addr code) :=
  (recordFault s src kind addr code).trans (reply _ _ _)

/-- A source's entry takes a new one with the same link. -/
theorem setSource {src : Source} {e : SourceEntry} (link : e.link = (s.source src).link) : Stays s (s.setSource src e) :=
  of_eq s (link := fun i => by
    have := s.setSource_source src i e
    rw [State.source] at this
    simp only [State.setSource] at this
    rw [this]
    split
    · next h => rw [link, h]
    · rfl)

theorem mapSources {f : Source → SourceEntry → SourceEntry} (link : ∀ i e, (f i e).link = e.link) :
    Stays s (s.mapSources f) :=
  of_eq s (link := fun i => by
    have := s.mapSources_source f i
    rw [State.source] at this
    simp only [State.mapSources] at this
    rw [this, link])

theorem clearHold (src : Source) : Stays s (s.clearHold src) := setSource s rfl
theorem setCompletion (src : Source) (c : Option Completion) : Stays s (s.setCompletion src c) := setSource s rfl
theorem advanceEpoch (src : Source) : Stays s (s.advanceEpoch src) := setSource s rfl

theorem compareHold (src : Source) (same : HeldRequest → Bool) : Stays s (s.compareHold src same) := by
  obtain ⟨h, eq⟩ := s.compareHold_eq src same
  rw [eq]
  exact setSource s rfl

theorem holdRequest (src : Source) (request : HeldRequest) : Stays s (s.holdRequest src request) := by
  obtain ⟨h, eq⟩ := s.holdRequest_eq src request
  rw [eq]
  exact (setSource s (by rfl)).trans (reply _ _ _)

theorem abandon (src : Source) : Stays s (s.abandon src) := by
  cases h : (s.source src).completion with
  | none => rw [State.abandon_of_none s h]; exact refl s
  | some c => rw [State.abandon_of_some s h]; exact (setSource s (by rfl)).trans (count _ _)

theorem refuse (src : Source) (kind : RequestKind) (addr : Addr) (code : FaultCode) :
    Stays s (s.refuse src kind addr code) :=
  (clearHold s src).trans (replyFault _ _ _ _ _)

theorem leaveWaitSets (keepStamp : Stamp → Bool) (keepSlot : SlotId → Bool) :
    Stays s (s.leaveWaitSets keepStamp keepSlot) :=
  mapSources s fun _ _ => rfl

theorem advanceTimers : Stays s s.advanceTimers := mapSources s fun _ _ => rfl

theorem expireNotice (src : Source) : Stays s (s.expireNotice src) :=
  (setCompletion s src none).trans ((count _ _).trans (setFlag _ _))

/-- One window takes an entry with the same page range. -/
theorem setWindow {i : WindowId} {w : Window} (range : s.windows[i].SameRange w) :
    Stays s { s with windows := s.windows.set i w } :=
  of_eq s (range := fun j => by
    by_cases h : i = j
    · subst h; simpa using range
    · have : (i : Nat) ≠ j := fun e => h (Fin.ext e)
      simpa [Vector.getElem_set_ne _ _ this] using Window.SameRange.refl _)

theorem setStoredGuardInUse (w : WindowId) (v : Bool) : Stays s (s.setStoredGuardInUse w v) :=
  setWindow s ⟨rfl, rfl, rfl, rfl⟩

theorem clearRuntimeGuards : Stays s s.clearRuntimeGuards :=
  of_eq s (range := fun i => by simpa using ⟨rfl, rfl, rfl, rfl⟩)

end Stays

end Sys2Proof.Machine
end

section
/-! SUPPORT. The moves of a command, and that every command is a chain of them. -/

namespace Sys2Proof.Machine

/-- The commands that complete an operation of the Memory Port (R146). -/
def Instr.completes : Instr → Bool
  | .readComposition _ | .drainWriteCompletion | .sealWriteCompletion | .homeWriteCompletion | .retirement
  | .recoveryReadCompletion _ | .replayWriteCompletion => true
  | _ => false

/-- The part after recovery, with this sequence counter: RUNNING, the pointers 0, the scanner idle (R169). -/
def State.afterRecovery (s : State) (seqCounter : Word) : State :=
  { s with journal := { s.journal with head := 0, tail := 0, fill := 0, seqCounter }, op := .running,
           scanner := { s.scanner with activity := .idle } }

/-- Slot `k` is ABORTED, with its owner and the cause and nothing else (R39). -/
def State.abortSlot (s : State) (k : SlotId) (cause : AbortCause) : State :=
  (s.releaseEntries k).setSlot k { Slot.empty with state := .aborted, owner := (s.slot k).owner, cause := some cause }

/-- Slot `k` has passed its commit point: SEALED, at the tail of the Apply Queue, no word of its seal due (R126, R131). -/
def State.sealSlot (s : State) (k : SlotId) : State :=
  { s.setSlot k { s.slot k with state := .sealed } with
    journal := { s.journal with sealWrites := [] }, apply := { s.apply with queue := s.apply.queue ++ [k] } }

/-- Slot `k` is APPLYING from its first position, taken from the head of the Apply Queue with this rest (R132). -/
def State.applySlot (s : State) (k : SlotId) (rest : List SlotId) : State :=
  { s.setSlot k { s.slot k with state := .applying, cursor := some 0 } with
    apply := { queue := rest, applying := some (k, .home) } }

/-- The applying slot `k` is freed (R135). -/
def State.retireSlot (s : State) (k : SlotId) : State :=
  { s.freeSlot k with apply := { s.apply with applying := none } }

/-- What command `c` can do to the groups: to the slots, the Staging Pool, the links and the engines' queues, one event
at a time. -/
inductive GroupMove (c : Instr) : State → State → Prop
  /-- A FREE slot is taken for a group that fits (R30). -/
  | opens (s : State) (src : Source) (k : SlotId) (n : Nat) (unlinked : (s.source src).link = none)
      (free : (s.slot k).state = .free) (pos : 1 ≤ n) (fits : n ≤ s.unreserved) : GroupMove c s (s.takeSlot src k n)
  /-- A write is staged in a FILLING slot (R37, R57, R58). -/
  | stages (s : State) (k : SlotId) (word : Addr) (mask : Mask) (data : Word) (window : Option WindowId)
      (filling : (s.slot k).state = .filling) (own : ∀ e, s.claimOf word = some e → e.slot = k) :
      GroupMove c s ((s.stage k word mask data).takeWrite k window)
  /-- The group of a FILLING or READY slot is aborted (R39). -/
  | aborts (s : State) (k : SlotId) (cause : AbortCause)
      (open_ : (s.slot k).state = .filling ∨ (s.slot k).state = .ready) :
      GroupMove c s (s.abortSlot k cause)
  /-- The owner's COMMIT of a READY slot is accepted (R45). -/
  | commits (s : State) (src : Source) (k : SlotId) (linked : (s.source src).link = some k)
      (ready : (s.slot k).state = .ready) (running : s.op = .running) (up : s.power = .up) :
      GroupMove c s (s.acceptCommit src k)
  /-- The owner's slot is freed (R47, R48). -/
  | discards (s : State) (src : Source) (k : SlotId) (linked : (s.source src).link = some k)
      (open_ : (s.slot k).state.linked = true) : GroupMove c s ((s.freeSlot k).setLink src none)
  /-- A link reset (R171). -/
  | resetsLink (s : State) : GroupMove c s s.linkReset
  /-- The seal of the Commit Queue's head begins (R123). -/
  | beginsSeal (s : State) (r : Region) (k : SlotId) (rest : List SlotId) (region : s.region = some r)
      (head : s.journal.commitQueue = k :: rest) (due : s.sealConditions k = true) : GroupMove c s (s.beginSeal r k rest)
  /-- A word of the seal that is not the last has been written (R124). -/
  | sealsWord (s : State) (landed : s.mp.inFlight = none)
      (more : s.journal.sealWrites.drop 1 ≠ [] ∨ s.sealingSlot = none) :
      GroupMove c s { s with journal := { s.journal with sealWrites := s.journal.sealWrites.drop 1 } }
  /-- The last word of the seal has been written (R126, R131). -/
  | commitPoint (s : State) (k : SlotId) (landed : s.mp.inFlight = none) (sealing : s.sealingSlot = some k) :
      GroupMove c s (s.sealSlot k)
  /-- The Apply Engine takes the head of its queue, if it is free (R132). -/
  | takesApplyHead (s : State) : GroupMove c s s.takeApplyHead
  /-- A home write of the applying slot has been made (R133). -/
  | writesHome (s : State) (k : SlotId) (applying : s.apply.applying = some (k, .home))
      (landed : s.mp.inFlight = none) : GroupMove c s (s.homeWritten k)
  /-- The applying slot is freed (R135). -/
  | retires (s : State) (k : SlotId) (applying : s.apply.applying = some (k, .retire))
      (landed : s.mp.inFlight = none) :
      GroupMove c s (s.retireSlot k)
  /-- Power is lost, or power-on reset begins (R147, R157). -/
  | cutsPower (s : State) (power : Power) (by_ : c = .powerOnReset ∨ c = .powerLoss) (down : power ≠ .up) :
      GroupMove c s (s.cutMemory.cutCell.powerOnValues power)

/-- What command `c` can do to the blocks that the laws speak of, one event at a time. -/
inductive Move (c : Instr) : State → State → Prop
  /-- No block changes (any shared operation that `Stays` covers). -/
  | stays {s t : State} (h : Stays s t) : Move c s t
  /-- CLEAR-FLAGS, as a command or as an item of a write transaction (R179). -/
  | clearsFlags (s : State) (mask : BitVec 16)
      (by_ : (∃ m, c = .clearFlags m) ∨ ∃ b, c = .managementWriteTransaction b) : Move c s (s.clearFlagBits mask)
  /-- The arbiter grants, if it may (R149). -/
  | grants (s : State) : Move c s s.grant
  /-- The operation in flight completes (R146). -/
  | completes (s : State) (by_ : Instr.completes c = true) : Move c s s.completeOp
  /-- A power-fail warning waits for the operation in flight (R151). -/
  | warns (s : State) (active : s.mp.port = .active) (flying : s.mp.inFlight ≠ none) :
      Move c s { s with mp := { s.mp with warning := true } }
  /-- A pending warning ends (R151). -/
  | unwarns (s : State) (active : s.mp.port = .active) : Move c s { s with mp := { s.mp with warning := false } }
  /-- The idle port enters QUIESCED (R151). -/
  | quiesces (s : State) (landed : s.mp.inFlight = none) : Move c s s.enterQuiesced
  /-- The QUIESCED port returns to ACTIVE (R153). -/
  | activates (s : State) (quiesced : s.mp.port = .quiesced) : Move c s { s with mp := { s.mp with port := .active } }
  /-- A READ is taken and held (R105). -/
  | holdsRead (s : State) (h : HeldRead) (fresh : h.granted = false) : Move c s { s with held := some h }
  /-- The held READ goes (R4, R106). -/
  | dropsRead (s : State) : Move c s { s with held := none }
  /-- A loose write is posted in a queue with room (R92, R93). -/
  | posts (s : State) (src : Source) (word : Addr) (mask : Mask) (data : Word) (combine : Bool)
      (room : s.posted.entries.length < 16) : Move c s (s.post src word mask data combine)
  /-- Combining into posted entries is blocked (R95, R96). -/
  | blocks (s : State) (of : Source → Bool) : Move c s (s.blockWrapped of)
  /-- The head of the Posted Write Queue leaves it (R97). -/
  | removesHead (s : State) (landed : s.mp.inFlight = none) : Move c s s.removeHead
  /-- The ring-space wait is noted (R118). -/
  | notesRingWait (s : State) (ringWait : Bool) : Move c s { s with journal := { s.journal with ringWait } }
  /-- Ring space is released (R136). -/
  | releasesRing (s : State) (tail fill : Nat) (le : fill ≤ s.journal.fill) :
      Move c s { s with journal := { s.journal with tail, fill } }
  /-- RELOAD's wait ends, if it may (R174, R175). -/
  | endsReloadWait (s : State) : Move c s s.endReloadWait
  /-- RELOAD is taken (R173). -/
  | reloads (s : State) (op : s.op = .running ∨ s.op = .unconfigured) :
      Move c s { s with op := .reloading, guardsCleared := false }
  /-- The Recovery Scanner works on (R165, R167). -/
  | scans (s : State) (x : Scanner) (landed : s.mp.inFlight = none) : Move c s (s.setScanner x)
  /-- Recovery ends (R169). -/
  | recovers (s : State) (seqCounter : Word) (landed : s.mp.inFlight = none) (pos : seqCounter ≠ 0) :
      Move c s (s.afterRecovery seqCounter)
  /-- A valid image is installed (R161). -/
  | installs (s : State) (op : s.op = .loading) (valid : s.imageValid = true) : Move c s s.install
  /-- The load fails (R162). -/
  | failsLoad (s : State) (op : s.op = .loading) : Move c s s.failLoad
  /-- An EEPROM cell has its byte (R187). -/
  | writesCell (s : State) (a : Nat) (b : Byte) : Move c s { s with eeprom := s.eeprom.set a b }
  /-- An EEPROM cell write finishes or does not (R187). -/
  | finishesCell (s : State) (cell : Option (Nat × Byte)) : Move c s (s.mayFinishCell cell)
  /-- Power-on reset ends (R157). -/
  | powersUp (s : State) (off : s.power ≠ .up) : Move c s { s with power := .up, op := .loading }
  /-- An event of the groups. -/
  | groups {s t : State} (g : GroupMove c s t) : Move c s t

/-- A chain of moves. -/
abbrev Moves (c : Instr) : State → State → Prop := Relation.ReflTransGen (Move c)

/-- What each move keeps, a chain of moves keeps. -/
theorem Moves.keeps {c : Instr} {P : State → Prop} (move : ∀ s t, Move c s t → P s → P t) {s t : State}
    (h : Moves c s t) (hs : P s) : P t := by
  induction h with
  | refl => exact hs
  | tail _ m ih => exact move _ _ m ih

theorem Move.one {c : Instr} {s t : State} (h : Move c s t) : Moves c s t := Relation.ReflTransGen.single h

theorem GroupMove.one {c : Instr} {s t : State} (h : GroupMove c s t) : Moves c s t := (Move.groups h).one

theorem Stays.moves {c : Instr} {s t : State} (h : Stays s t) : Moves c s t := (Move.stays h).one

section

variable {c : Instr} (s : State)

/-! ### Shared operations -/

/-- An abort frees the group's entries, and is counted, flagged and recorded (R39, R40). -/
theorem moves_abortGroup {k : SlotId} (cause : AbortCause)
    (open_ : (s.slot k).state = .filling ∨ (s.slot k).state = .ready) : Moves c s (s.abortGroup k cause) := by
  refine (GroupMove.aborts s k cause open_).one.trans (Stays.moves ?_)
  have noted := ((Stays.count (s.abortSlot k cause) .abortedGroups).trans (Stays.setFlag _ .groupAborted)).trans
    (Stays.recordEnd _ k ((s.slot k).owner.getD 0) (.aborted cause))
  unfold State.abortGroup
  dsimp only
  split
  · exact noted.trans (Stays.noteGuardRefusal _)
  · exact noted

theorem moves_noteRingWait : Moves c s s.noteRingWait := by
  unfold State.noteRingWait
  split
  · exact .refl
  · split
    · exact (Move.notesRingWait s true).one.trans ((Stays.count _ _).trans (Stays.setFlag _ _)).moves
    · exact .refl

theorem moves_quiesceIfWarned : Moves c s s.quiesceIfWarned := by
  unfold State.quiesceIfWarned
  split
  · next h => exact (Move.quiesces s h.2).one
  · exact .refl

/-- What follows a completion is four moves at most (log 18). -/
theorem moves_settle : Moves c s s.settle :=
  (moves_noteRingWait s).trans <| (Move.endsReloadWait _).one.trans <|
    (moves_quiesceIfWarned _).trans (Move.grants _).one

/-- A request that is judged reaches a part that has power, runs, and has room for a WRITE (R1, R3). -/
theorem moves_request {src : Source} {kind : RequestKind} {addr : Addr} {judge : State → State}
    (judged : s.power = .up → s.op = .running → (kind = .write → s.posted.entries.length < 16) →
      Moves c s (judge s)) : Moves c s (s.request src kind addr judge) := by
  unfold State.request
  split
  · exact (Stays.of_eq s).moves
  · next takes =>
    simp only [State.busWaits, Bool.or_eq_true, Bool.and_eq_true, decide_eq_true_eq, not_or, not_and, not_le] at takes
    split
    · exact (Stays.reply s _ _).moves
    · split
      · exact (Stays.reply s _ _).moves
      · exact (Stays.reply s _ _).moves
      · exact (Stays.reply s _ _).moves
      · exact (Stays.replyFault s _ _ _ _).moves
      · next op => exact judged (by simpa using takes.1.1.1) op takes.2

/-! ### READ and WRITE -/

theorem moves_judgeRead (src : Source) (addr : Addr) : Moves c s (s.judgeRead src addr) := by
  unfold State.judgeRead
  dsimp only
  split
  · exact ((Stays.clearHold s src).trans (Stays.replyFault _ _ _ _ _)).moves
  · split
    · exact ((Stays.clearHold s src).trans (Stays.replyFault _ _ _ _ _)).moves
    · exact (Stays.clearHold s src).moves.trans <| (Move.holdsRead _ _ rfl).one.trans <|
        (Stays.of_eq _).moves.trans (Move.grants _).one

theorem moves_answerRead (parityFault : Bool) (memory : Word) : Moves c s (s.answerRead parityFault memory) := by
  unfold State.answerRead
  split
  · exact .refl
  · split
    · dsimp only
      split
      · exact (Move.dropsRead s).one.trans ((Stays.noteParity _).trans (Stays.replyFault _ _ _ _ _)).moves
      · exact (Move.dropsRead s).one.trans (Stays.reply _ _ _).moves
    · exact .refl

/-- The owner's request ends its group in an abort, answered FAULT ABORTED (R39, R40). -/
theorem moves_abortAnswer (src : Source) {k : SlotId} (kind : RequestKind) (addr : Addr) (cause : AbortCause)
    (open_ : (s.slot k).state = .filling ∨ (s.slot k).state = .ready) :
    Moves c s (s.abortAnswer src k kind addr cause) :=
  (moves_abortGroup s cause open_).trans (Stays.refuse _ _ _ _ _).moves

theorem moves_looseWrite (src : Source) (addr : Addr) (mask : Mask) (data : Word)
    (room : s.posted.entries.length < 16) : Moves c s (s.looseWrite src addr mask data) := by
  unfold State.looseWrite
  dsimp only
  split
  · exact (Stays.refuse s _ _ _ _).moves
  · split
    · exact (Stays.refuse s _ _ _ _).moves
    · split
      · exact ((Stays.noteGuardRefusal s).trans (Stays.refuse _ _ _ _ _)).moves
      · split
        · exact (Stays.refuse s _ _ _ _).moves
        · split
          · exact (Stays.holdRequest s _ _).moves
          · exact (Stays.clearHold s src).moves.trans <| (Move.posts (s.clearHold src) src _ mask data _ room).one.trans <|
              (Stays.reply _ _ _).moves.trans (Move.grants _).one

theorem moves_fillingWrite (src : Source) {k : SlotId} (addr : Addr) (mask : Mask) (data : Word)
    (filling : (s.slot k).state = .filling) : Moves c s (s.fillingWrite src k addr mask data) := by
  unfold State.fillingWrite
  dsimp only
  split
  · exact moves_abortAnswer s src _ _ _ (.inl filling)
  · split
    · exact moves_abortAnswer s src _ _ _ (.inl filling)
    · split
      · split
        · exact (Stays.refuse s _ _ _ _).moves
        · exact (Stays.holdRequest s _ _).moves
      · next free =>
        have own : ∀ e, (s.clearHold src).claimOf (s.lookup addr).word = some e → e.slot = k := by
          intro e he
          have he' : s.claimOf (s.lookup addr).word = some e := he
          simpa [he'] using free
        exact (Stays.clearHold s src).moves.trans <|
          (GroupMove.stages (s.clearHold src) k _ mask data _ filling own).one.trans (Stays.reply _ _ _).moves

theorem moves_groupWrite (src : Source) (k : SlotId) (addr : Addr) (mask : Mask) (data : Word) :
    Moves c s (s.groupWrite src k addr mask data) := by
  unfold State.groupWrite
  split
  case h_1 filling => exact moves_fillingWrite s src addr mask data filling
  case h_2 ready => exact moves_abortAnswer s src _ _ _ (.inr ready)
  all_goals exact (Stays.refuse s _ _ _ _).moves

theorem moves_judgeWrite (src : Source) (addr : Addr) (mask : Mask) (data : Word)
    (room : s.posted.entries.length < 16) : Moves c s (s.judgeWrite src addr mask data) := by
  unfold State.judgeWrite
  have compared := Stays.compareHold s src (HeldRequest.isWriteTo addr)
  refine compared.moves.trans ?_
  dsimp only
  split
  · exact (Stays.refuse _ _ _ _ _).moves
  · split
    · exact (Stays.refuse _ _ _ _ _).moves
    · split
      · exact moves_groupWrite _ src _ addr mask data
      · exact moves_looseWrite _ src addr mask data (by rwa [compared.posted])

/-! ### The marks -/

theorem moves_openFresh (src : Source) (count : Byte) (unlinked : (s.source src).link = none) :
    Moves c s (s.openFresh src count) := by
  unfold State.openFresh
  split
  · exact (Stays.replyFault s _ _ _ _).moves
  · next legal =>
    refine (Stays.abandon s src).moves.trans ?_
    dsimp only
    split
    · exact (Stays.refuse _ _ _ _ _).moves
    · split
      · next k found =>
        unfold State.openSlot at found
        split at found
        · next fits =>
          have cleared := Stays.clearHold (s.abandon src) src
          refine cleared.moves.trans ((GroupMove.opens ((s.abandon src).clearHold src) src k _ ?_
            (State.freeSlotId_some _ found) ?_ fits).one.trans (Stays.reply _ _ _).moves)
          · rw [cleared.link, (Stays.abandon s src).link, unlinked]
          · omega
        · cases found
      · exact (Stays.holdRequest _ _ _).moves

theorem moves_judgeOpen (src : Source) (count : Byte) : Moves c s (s.judgeOpen src count) := by
  unfold State.judgeOpen
  refine (Stays.compareHold s src (HeldRequest.isOpenOf count)).moves.trans ?_
  dsimp only
  split
  · next unlinked => exact moves_openFresh _ src count unlinked
  · refine (Stays.abandon _ src).moves.trans ?_
    split
    case h_1 state => exact moves_abortAnswer _ src _ _ _ (.inl state)
    case h_2 state => exact moves_abortAnswer _ src _ _ _ (.inr state)
    all_goals exact (Stays.refuse _ _ _ _ _).moves

theorem moves_commitReady (src : Source) (k : SlotId) (linked : (s.source src).link = some k)
    (ready : (s.slot k).state = .ready) (running : s.op = .running) (up : s.power = .up) :
    Moves c s (s.commitReady src k) := by
  unfold State.commitReady
  split
  · exact moves_abortAnswer s src _ _ _ (.inr ready)
  · exact (GroupMove.commits s src k linked ready running up).one.trans (moves_noteRingWait _)

theorem stays_commitUnlinked (src : Source) : Stays s (s.commitUnlinked src) := by
  unfold State.commitUnlinked
  split
  · exact Stays.reply s _ _
  · exact (Stays.setCompletion s _ _).trans (Stays.reply _ _ _)
  · exact (Stays.abandon s _).trans (Stays.replyFault _ _ _ _ _)
  · exact Stays.replyFault s _ _ _ _

theorem moves_judgeCommit (src : Source) (running : s.op = .running) (up : s.power = .up) :
    Moves c s (s.judgeCommit src) := by
  unfold State.judgeCommit
  refine (Stays.clearHold s src).moves.trans ?_
  dsimp only
  split
  · exact (stays_commitUnlinked _ src).moves
  · next k linked =>
    have abandoned := Stays.abandon (s.clearHold src) src
    refine abandoned.moves.trans ?_
    split
    case h_1 state => exact moves_abortAnswer _ src _ _ _ (.inl state)
    case h_2 state =>
      exact moves_commitReady _ src k (by rw [abandoned.link, linked]) state (by rw [abandoned.op]; exact running)
        (by rw [abandoned.power]; exact up)
    all_goals exact (Stays.replyFault _ _ _ _ _).moves

theorem moves_judgeDiscard (src : Source) (reason : Byte) : Moves c s (s.judgeDiscard src reason) := by
  unfold State.judgeDiscard
  refine (Stays.clearHold s src).moves.trans ?_
  dsimp only
  split
  · exact (Stays.replyFault _ _ _ _ _).moves
  · next k linked =>
    have freed : ∀ {state : SlotState}, ((s.clearHold src).slot k).state = state → state.linked = true →
        Moves c (s.clearHold src) (((s.clearHold src).freeSlot k).setLink src none) :=
      fun h open_ => (GroupMove.discards _ src k linked (by rw [h]; exact open_)).one
    split
    case h_1 state =>
      exact (freed state rfl).trans
        (((Stays.count _ _).trans (Stays.recordEnd _ _ _ _)).trans (Stays.reply _ _ _)).moves
    case h_2 state =>
      exact (freed state rfl).trans
        (((Stays.count _ _).trans (Stays.recordEnd _ _ _ _)).trans (Stays.reply _ _ _)).moves
    case h_3 state => exact (freed state rfl).trans (Stays.reply _ _ _).moves
    all_goals exact (Stays.replyFault _ _ _ _ _).moves

theorem moves_judgeOrder (src : Source) : Moves c s (s.judgeOrder src) :=
  ((Stays.clearHold s src).trans (Stays.advanceEpoch _ src)).moves.trans <|
    (Move.blocks _ _).one.trans (Stays.reply _ _ _).moves

theorem stays_flushFresh (src : Source) : Stays s (s.flushFresh src) := by
  unfold State.flushFresh
  split
  · exact Stays.reply s _ _
  · exact (Stays.setCompletion s _ _).trans (Stays.reply _ _ _)

theorem stays_judgeFlush (src : Source) : Stays s (s.judgeFlush src) := by
  unfold State.judgeFlush
  refine (Stays.clearHold s src).trans ?_
  dsimp only
  split
  · exact Stays.reply _ _ _
  · exact (Stays.setCompletion _ _ _).trans (Stays.reply _ _ _)
  · exact (Stays.abandon _ _).trans (stays_flushFresh _ _)
  · exact stays_flushFresh _ _

/-! ### Timers -/

theorem moves_expireHold (src : Source) : Moves c s (s.expireHold src) := by
  unfold State.expireHold
  split
  · exact .refl
  · next h _ =>
    have expired : Stays s (((s.setSource src { s.source src with hold := some { h with expired := true } }).count
        .holdExpiries).setFlag .holdExpired) :=
      (Stays.setSource s (by rfl)).trans ((Stays.count _ _).trans (Stays.setFlag _ _))
    refine expired.moves.trans ?_
    dsimp only
    split
    · split
      · next filling => exact moves_abortGroup _ _ (.inl filling)
      · exact .refl
    · exact .refl

/-- An operation on one source after the other is the chain of the single ones. -/
theorem moves_foldl {α : Type} {f : State → α → State} (one : ∀ (x : State) (a : α), Moves c x (f x a)) :
    ∀ (l : List α) (x : State), Moves c x (l.foldl f x)
  | [], _ => .refl
  | a :: l, x => (one x a).trans (moves_foldl one l (f x a))

theorem moves_expireHolds : Moves c s s.expireHolds := by
  unfold State.expireHolds
  split
  · exact .refl
  · exact moves_expireHold s _
  · exact (Stays.of_eq s).moves.trans (moves_foldl moves_expireHold _ _)

theorem moves_expireNotices : Moves c s s.expireNotices :=
  moves_foldl (fun x i => (Stays.expireNotice x i).moves) _ s

theorem moves_failLinkOp : Moves c s s.failLinkOp :=
  ((Stays.of_eq s).trans (Stays.setFlag _ _)).moves.trans (Move.endsReloadWait _).one

theorem moves_endLinkOp : Moves c s s.endLinkOp := (Stays.of_eq s).moves.trans (Move.endsReloadWait _).one

theorem moves_expirePolling : Moves c s s.expirePolling :=
  (Move.finishesCell s _).one.trans (moves_failLinkOp _)

theorem moves_tickSources : Moves c s s.tickSources := by
  unfold State.tickSources
  split
  · exact (Stays.advanceTimers s).moves.trans ((moves_expireHolds _).trans (moves_expireNotices _))
  · exact .refl

theorem moves_tickLink : Moves c s s.tickLink := by
  unfold State.tickLink
  refine (Stays.configLink s { s.cl with op := s.cl.op.map LinkOp.tick }).moves.trans ?_
  dsimp only
  split
  · exact moves_expirePolling _
  · exact .refl

theorem moves_tick : Moves c s s.tick :=
  (Stays.of_eq s).moves.trans ((moves_tickSources _).trans (moves_tickLink _))

theorem moves_clockCycle : Moves c s s.clockCycle := by
  unfold State.clockCycle
  refine (Stays.quiet s).moves.trans ?_
  dsimp only
  split
  · split
    · exact moves_tick _
    · exact (Stays.of_eq _).moves
  · exact .refl

/-! ### The engines -/

theorem completeOp_landed : s.completeOp.mp.inFlight = none := by
  obtain ⟨_, h⟩ := s.completeOp_eq
  rw [h]

theorem moves_sealWordWritten (landed : s.mp.inFlight = none) : Moves c s s.sealWordWritten := by
  unfold State.sealWordWritten
  dsimp only
  split
  · next k last sealing =>
    have counted : ∀ x : State, Stays x
        (((x.setSource ((s.slot k).owner.getD 0) { x.source ((s.slot k).owner.getD 0) with
            completion := (x.source ((s.slot k).owner.getD 0)).completion.map (Completion.commitPoint k) }).count
          .sealedGroups).recordEnd k ((s.slot k).owner.getD 0) (.sealed ((s.slot k).seqNo.getD 0))) := fun x =>
      (Stays.setSource x (by rfl)).trans ((Stays.count _ _).trans (Stays.recordEnd _ _ _ _))
    have sealing' : s.sealingSlot = some k := sealing
    refine (GroupMove.commitPoint s k landed sealing').one.trans ((counted _).moves.trans ?_)
    have drop : s.journal.sealWrites.drop 1 = [] := last
    have := GroupMove.takesApplyHead (c := c) { ((((s.setSlot k { s.slot k with state := .sealed }).setSource
      ((s.slot k).owner.getD 0) { s.source ((s.slot k).owner.getD 0) with
        completion := (s.source ((s.slot k).owner.getD 0)).completion.map (Completion.commitPoint k) }).count
          .sealedGroups).recordEnd k ((s.slot k).owner.getD 0) (.sealed ((s.slot k).seqNo.getD 0))) with
      journal := { s.journal with sealWrites := [] }, apply := { s.apply with queue := s.apply.queue ++ [k] } }
    simp only [State.commitPoint, drop]
    exact this.one
  · next no =>
    refine (GroupMove.sealsWord s landed ?_).one
    by_contra both
    simp only [ne_eq, not_or, not_not] at both
    obtain ⟨k, hk⟩ := Option.ne_none_iff_exists'.1 both.2
    exact no k both.1 hk

/-- A release of ring space changes tail and fill alone, and does not raise fill (R136). -/
theorem Journal.release_eq (j : Journal) (r : Region) (position size : Nat) (oldest : Option Nat) :
    ∃ tail fill, fill ≤ j.fill ∧ j.release r position size oldest = { j with tail, fill } := by
  unfold Journal.release
  dsimp only
  generalize (if position + size = r.size then 0 else position + size) = tail
  split
  · exact ⟨0, _, by omega, rfl⟩
  · exact ⟨tail, _, Nat.sub_le _ _, rfl⟩

theorem moves_retire {k : SlotId} (applying : s.apply.applying = some (k, .retire)) (landed : s.mp.inFlight = none) :
    Moves c s (s.retire k) := by
  obtain ⟨tail, fill, le, released⟩ := s.journal.release_eq s.ring ((s.slot k).position.getD 0)
    ((s.slot k).recordSize.getD 0) s.oldestAfter
  unfold State.retire
  dsimp only
  rw [released]
  exact (Move.releasesRing s tail fill le).one.trans <|
    (GroupMove.retires { s with journal := { s.journal with tail, fill } } k applying landed).one.trans <|
      (Stays.leaveWaitSets _ _ _).moves.trans (GroupMove.takesApplyHead _).one

theorem moves_warn : Moves c s s.warn := by
  unfold State.warn
  split
  · exact .refl
  · next fresh =>
    simp only [not_or] at fresh
    have active : s.mp.port = .active := by
      cases h : s.mp.port with
      | active => rfl
      | quiesced => exact absurd h fresh.1
    split
    · next landed => exact (Move.quiesces s landed).one
    · next flying => exact (Move.warns s active (by rw [flying]; simp)).one

/-! ### Recovery -/

/-- The sequence counter after recovery: one above the highest sequence found, or 1 (R169). -/
def counterAfterRecovery : Option Word → Word
  | none => 1
  | some h => if h = BitVec.allOnes 32 then 1 else h + 1

theorem counterAfterRecovery_ne_zero (highest : Option Word) : counterAfterRecovery highest ≠ 0 := by
  cases highest with
  | none => decide
  | some h =>
    by_cases highest : h = BitVec.allOnes 32
    · simp [counterAfterRecovery, highest]
    · rw [counterAfterRecovery, if_neg highest]
      exact fun zero => highest ((eq_neg_iff_add_eq_zero.2 zero).trans rfl)

/-- The end of recovery also sets the flag of the damage note (R169). -/
theorem State.endRecovery_eq : s.endRecovery =
    if s.scanner.damage then (s.afterRecovery (counterAfterRecovery s.scanner.highest)).setFlag .recoveryDamage
    else s.afterRecovery (counterAfterRecovery s.scanner.highest) := rfl

theorem moves_endRecovery (landed : s.mp.inFlight = none) : Moves c s s.endRecovery := by
  rw [State.endRecovery_eq]
  refine (Move.recovers s _ landed (counterAfterRecovery_ne_zero s.scanner.highest)).one.trans ?_
  split
  · exact (Stays.setFlag _ _).moves
  · exact .refl

theorem moves_endPass (landed : s.mp.inFlight = none) : Moves c s s.endPass := by
  unfold State.endPass
  split
  · exact moves_endRecovery s landed
  · exact (Move.scans s _ landed).one

theorem moves_advanceScan (bytes : Nat) (landed : s.mp.inFlight = none) : Moves c s (s.advanceScan bytes) := by
  unfold State.advanceScan
  refine (Move.scans s { s.scanner with offset := s.scanner.offset + bytes, buffer := [] } landed).one.trans ?_
  dsimp only
  split
  · exact moves_endPass _ landed
  · exact .refl

theorem moves_torn (landed : s.mp.inFlight = none) : Moves c s s.torn := by
  unfold State.torn
  dsimp only
  split
  · exact (Move.scans s _ landed).one.trans <| (Stays.count _ _).moves.trans (moves_advanceScan _ _ landed)
  · exact moves_advanceScan s _ landed

theorem stays_surveyParity : Stays s s.surveyParity := by
  unfold State.surveyParity
  split
  · exact Stays.noteParity s
  · exact Stays.refl s

theorem moves_judgeHeader (w : Word) (landed : s.mp.inFlight = none) : Moves c s (s.judgeHeader w) := by
  unfold State.judgeHeader
  dsimp only
  split
  · exact moves_advanceScan s _ landed
  · split
    · exact moves_advanceScan s _ landed
    · split
      · exact moves_torn s landed
      · exact (Move.scans s _ landed).one

theorem moves_judgeWord (header w : Word) (landed : s.mp.inFlight = none) : Moves c s (s.judgeWord header w) := by
  unfold State.judgeWord
  dsimp only
  split
  · exact (Move.scans s _ landed).one
  · split
    · exact (Move.scans s _ landed).one.trans (moves_advanceScan _ _ landed)
    · exact moves_torn s landed

theorem moves_scanned (parityFault : Bool) (w : Word) (landed : s.mp.inFlight = none) :
    Moves c s (s.scanned parityFault w) := by
  have noted := stays_surveyParity s
  have landed' : s.surveyParity.mp.inFlight = none := by rw [noted.mp, landed]
  unfold State.scanned
  split
  · split
    · exact noted.moves.trans (moves_advanceScan _ _ landed')
    · exact moves_judgeHeader s w landed
  · split
    · exact noted.moves.trans (moves_torn _ landed')
    · exact moves_judgeWord s _ w landed

theorem moves_replayed (r : ChosenRecord) (landed : s.mp.inFlight = none) : Moves c s (s.replayed r) :=
  ((Stays.count s .replayedRecords).trans (Stays.recordEnd _ (originSlot r.origin) (originSource r.origin)
    (.replayed r.seqNo))).moves.trans (Move.scans ((s.count .replayedRecords).recordEnd _ _ _) _ landed).one

/-! ### The Configuration Link and the Management Link -/

theorem moves_linkRead : Moves c s s.linkRead := by
  unfold State.linkRead
  split
  case h_1 => exact (Stays.of_eq s).moves.trans (moves_endLinkOp _)
  case h_2 => exact (Stays.setLinkOp s _).moves
  case h_3 => exact (Stays.setLinkOp s _).moves
  all_goals exact .refl

theorem stays_linkAcknowledged : Stays s s.linkAcknowledged := by
  unfold State.linkAcknowledged
  split
  case h_1 => exact Stays.setLinkOp s _
  case h_2 => exact Stays.setLinkOp s _
  case h_3 => exact Stays.setLinkOp s _
  all_goals exact Stays.refl s

theorem moves_linkPolled : Moves c s s.linkPolled := by
  unfold State.linkPolled
  split
  case h_1 => exact (Move.writesCell s _ _).one.trans (moves_endLinkOp _)
  case h_2 => exact (Move.writesCell s _ _).one.trans (Stays.setLinkOp _ _).moves
  case h_3 =>
    exact (Move.writesCell s _ _).one.trans <| (Stays.setStoredGuardInUse _ _ _).moves.trans (moves_endLinkOp _)
  all_goals exact .refl

theorem moves_linkMissed : Moves c s s.linkMissed := by
  unfold State.linkMissed
  split
  case h_1 | h_2 | h_3 | h_4 | h_5 | h_6 => exact moves_failLinkOp s
  all_goals exact .refl

theorem moves_managed {act : State → State} (acts : Moves c s (act s)) : Moves c s (s.managed act) := by
  unfold State.managed
  split
  · exact acts
  · exact .refl

theorem stays_setRuntimeGuardItem (index value : Byte) : Stays s (s.setRuntimeGuardItem index value) := by
  unfold State.setRuntimeGuardItem
  split
  · exact (Stays.setWindow s (by exact ⟨rfl, rfl, rfl, rfl⟩)).trans (Stays.itemTaken _ _ _)
  · exact Stays.itemTaken s _ _

theorem stays_alertMaskItem (mask : BitVec 16) : Stays s (s.alertMaskItem mask) :=
  (Stays.of_eq s (ml := { s.ml with alertMask := mask.setWidth 9 })).trans (Stays.itemTaken _ _ _)

theorem stays_lockGuardsItem : Stays s s.lockGuardsItem :=
  (Stays.of_eq s (ml := { s.ml with guardLock := true }) (records := ⟨fun _ => le_rfl, fun _ => id, fun _ => rfl⟩)).trans
    (Stays.itemTaken _ _ _)

theorem stays_setStoredGuardItem (index value : Byte) : Stays s (s.setStoredGuardItem index value) := by
  unfold State.setStoredGuardItem
  split
  · split
    · exact Stays.itemTaken s _ _
    · split
      · exact Stays.itemTaken s _ _
      · exact (Stays.beginLinkOp s _).trans (Stays.itemTaken _ _ _)
  · exact Stays.itemTaken s _ _

theorem stays_eepromReadItem (addr : Byte) : Stays s (s.eepromReadItem addr) := by
  unfold State.eepromReadItem
  split
  · exact Stays.itemTaken s _ _
  · exact (Stays.beginLinkOp s _).trans (Stays.itemTaken _ _ _)

theorem stays_eepromWriteItem (addr data : Byte) : Stays s (s.eepromWriteItem addr data) := by
  unfold State.eepromWriteItem
  split
  · exact Stays.itemTaken s _ _
  · split
    · exact Stays.itemTaken s _ _
    · exact (Stays.beginLinkOp s _).trans (Stays.itemTaken _ _ _)

theorem moves_reloadItem : Moves c s s.reloadItem := by
  have reloaded (op : s.op = .running ∨ s.op = .unconfigured) : Moves c s
      (({ s with op := .reloading, guardsCleared := false }.linkReset.endReloadWait).itemTaken .reload .ok) :=
    (Move.reloads s op).one.trans <| (GroupMove.resetsLink _).one.trans <|
      (Move.endsReloadWait _).one.trans (Stays.itemTaken _ _ _).moves
  unfold State.reloadItem
  split
  case h_1 op => exact reloaded (.inl op)
  case h_2 op => exact reloaded (.inr op)
  all_goals exact (Stays.itemTaken s _ _).moves

theorem moves_linkResetItem : Moves c s s.linkResetItem :=
  (GroupMove.resetsLink s).one.trans (Stays.itemTaken _ _ _).moves

/-- CLEAR-FLAGS clears the flags of its mask, and no other item does. -/
theorem moves_clearFlagsItem (mask : BitVec 16)
    (by_ : (∃ m, c = .clearFlags m) ∨ ∃ b, c = .managementWriteTransaction b) : Moves c s (s.clearFlagsItem mask) :=
  (Move.clearsFlags s mask by_).one.trans (Stays.itemTaken _ _ _).moves

theorem moves_commandItem (item : Item) (bytes : List Byte) (by_ : ∃ b, c = .managementWriteTransaction b) :
    Moves c s (s.commandItem item bytes) := by
  unfold State.commandItem
  cases item with
  | clearFlags => exact moves_clearFlagsItem s _ (.inr by_)
  | alertMask => exact (stays_alertMaskItem s _).moves
  | setRuntimeGuard => exact (stays_setRuntimeGuardItem s _ _).moves
  | lockGuards => exact (stays_lockGuardsItem s).moves
  | setStoredGuard => exact (stays_setStoredGuardItem s _ _).moves
  | eepromRead => exact (stays_eepromReadItem s _).moves
  | eepromWrite => exact (stays_eepromWriteItem s _ _).moves
  | reload => exact moves_reloadItem s
  | linkReset => exact moves_linkResetItem s
  | status | flags | counter | lastFault | lastEnd | eepromResult => exact .refl

theorem moves_writeTransaction (bytes : List Byte) (by_ : ∃ b, c = .managementWriteTransaction b) :
    Moves c s (s.writeTransaction bytes) := by
  unfold State.writeTransaction
  split
  · exact .refl
  · split
    · exact (Stays.setResult s _).moves
    · split
      · exact (Stays.itemTaken s _ _).moves
      · split
        · exact (Stays.itemTaken s _ _).moves
        · split
          · exact (Stays.setResult s _).moves
          · exact moves_commandItem s _ _ by_

end

/-! ### Every command -/

/-- A command that shows nothing to the bus and then acts is the chain of its act. -/
theorem moves_quiet {c : Instr} {s t : State} (acts : Moves c s.quiet t) : Moves c s t :=
  (Stays.quiet s).moves.trans acts

/-- A request shows nothing to the bus before it is taken. -/
theorem moves_quiet_request {c : Instr} (s : State) {src : Source} {kind : RequestKind} {addr : Addr}
    {judge : State → State} (judged : Moves c s.quiet (judge s.quiet)) :
    Moves c s (s.quiet.request src kind addr judge) :=
  moves_quiet (moves_request _ fun _ _ _ => judged)

/-- A completion takes the operation out of flight, acts, and settles. -/
theorem moves_completion {c : Instr} (completes : Instr.completes c = true) {s t : State}
    (acts : Moves c s.completeOp t) : Moves c s t.settle :=
  (Move.completes s completes).one.trans (acts.trans (moves_settle t))

/-- Every command answers a next state, by a chain of its moves. -/
theorem exec_moves (c : Instr) (s : State) : ∃ t, exec c s = .next t ∧ Moves c s t := by
  cases c with
  | read src addr => exact ⟨_, rfl, moves_quiet_request s (moves_judgeRead _ src addr)⟩
  | readComposition parityFault =>
    refine ⟨_, rfl, moves_quiet ?_⟩
    split
    · exact moves_completion rfl (moves_answerRead _ _ _)
    · exact .refl
  | write src addr mask data guard =>
    exact ⟨_, rfl, moves_quiet <| (Stays.sampleGuard _ guard).moves.trans <|
      moves_request _ fun _ _ room => moves_judgeWrite _ src addr mask data (room rfl)⟩
  | openMark src count => exact ⟨_, rfl, moves_quiet_request s (moves_judgeOpen _ src count)⟩
  | commitMark src arg guard =>
    exact ⟨_, rfl, moves_quiet <| (Stays.sampleGuard _ guard).moves.trans <|
      moves_request _ fun up running _ => moves_judgeCommit _ src running up⟩
  | discardMark src reason => exact ⟨_, rfl, moves_quiet_request s (moves_judgeDiscard _ src reason)⟩
  | orderMark src arg => exact ⟨_, rfl, moves_quiet_request s (moves_judgeOrder _ src)⟩
  | flushMark src arg => exact ⟨_, rfl, moves_quiet_request s (stays_judgeFlush _ src).moves⟩
  | badMark src code arg => exact ⟨_, rfl, moves_quiet_request s (Stays.refuse _ _ _ _ _).moves⟩
  | tick =>
    refine ⟨_, rfl, moves_quiet ?_⟩
    split
    · exact moves_tick _
    · exact .refl
  | holdExpiry src =>
    refine ⟨_, rfl, moves_quiet ?_⟩
    split
    · exact (Stays.setSource s.quiet (by rfl)).moves.trans (moves_expireHold _ src)
    · exact .refl
  | collectExpiry src =>
    refine ⟨_, rfl, moves_quiet ?_⟩
    split
    · exact ((Stays.setCompletion s.quiet _ _).trans (Stays.expireNotice _ src)).moves
    · exact .refl
  | drainWriteCompletion =>
    refine ⟨_, rfl, moves_quiet ?_⟩
    split
    · exact moves_completion rfl (Move.removesHead _ (completeOp_landed _)).one
    · exact .refl
  | beginningOfSeal =>
    refine ⟨_, rfl, moves_quiet ?_⟩
    split
    · next head region =>
      split
      · next due => exact (GroupMove.beginsSeal _ _ _ _ region head due).one.trans (Move.grants _).one
      · exact .refl
    · exact .refl
  | sealWriteCompletion =>
    refine ⟨_, rfl, moves_quiet ?_⟩
    split
    · exact moves_completion rfl (moves_sealWordWritten _ (completeOp_landed _))
    · exact .refl
  | homeWriteCompletion =>
    refine ⟨_, rfl, moves_quiet ?_⟩
    split
    · next applying =>
      split
      · exact moves_completion rfl
          (GroupMove.writesHome _ _ (by rw [State.completeOp_apply]; exact applying) (completeOp_landed _)).one
      · exact .refl
    · exact .refl
  | retirement =>
    refine ⟨_, rfl, moves_quiet ?_⟩
    split
    · next applying =>
      split
      · exact moves_completion rfl
          (moves_retire _ (by rw [State.completeOp_apply]; exact applying) (completeOp_landed _))
      · exact .refl
    · exact .refl
  | pfailAsserted =>
    refine ⟨_, rfl, moves_quiet ((Stays.setPfail _ true).moves.trans ?_)⟩
    split
    · exact (Stays.setFlag _ _).moves.trans (moves_warn _)
    · exact .refl
  | pfailDeasserted =>
    refine ⟨_, rfl, moves_quiet ((Stays.setPfail _ false).moves.trans ?_)⟩
    split
    · split
      · next quiesced => exact (Move.activates _ quiesced).one.trans (moves_settle _)
      · next active => exact (Move.unwarns _ active).one
    · exact .refl
  | powerOnReset => exact ⟨_, rfl, (GroupMove.cutsPower s _ (.inl rfl) (by decide)).one⟩
  | endOfPowerOnReset =>
    refine ⟨_, rfl, moves_quiet ?_⟩
    split
    · next off =>
      refine (Move.powersUp _ (by rw [off]; decide)).one.trans ?_
      dsimp only
      split
      · exact (Stays.setFlag _ _).moves.trans (moves_warn _)
      · exact .refl
    · exact .refl
    · exact .refl
  | lrstAsserted =>
    refine ⟨_, rfl, moves_quiet ((Stays.setLrst _ true).moves.trans ?_)⟩
    split
    · exact (GroupMove.resetsLink _).one
    · exact .refl
  | lrstDeasserted => exact ⟨_, rfl, ((Stays.quiet s).trans (Stays.setLrst _ false)).moves⟩
  | endOfLoad acknowledged =>
    refine ⟨_, rfl, moves_quiet ?_⟩
    split
    · next loading =>
      split
      · next valid =>
        exact (Move.installs _ loading.2 (Bool.and_eq_true_iff.1 valid).2).one.trans (Move.grants _).one
      · exact (Move.failsLoad _ loading.2).one
    · exact .refl
  | recoveryReadCompletion parityFault =>
    refine ⟨_, rfl, moves_quiet ?_⟩
    split
    · exact moves_completion rfl (moves_scanned _ _ _ (completeOp_landed _))
    · exact .refl
  | replayWriteCompletion =>
    refine ⟨_, rfl, moves_quiet ?_⟩
    split
    · exact moves_completion rfl (Move.scans _ _ (completeOp_landed _)).one
    · exact moves_completion rfl (moves_replayed _ _ (completeOp_landed _))
    · exact .refl
  | clearFlags mask => exact ⟨_, rfl, moves_quiet (moves_managed _ (moves_clearFlagsItem _ mask (.inl ⟨_, rfl⟩)))⟩
  | alertMask mask => exact ⟨_, rfl, moves_quiet (moves_managed _ (stays_alertMaskItem _ mask).moves)⟩
  | setRuntimeGuard index value =>
    exact ⟨_, rfl, moves_quiet (moves_managed _ (stays_setRuntimeGuardItem _ index value).moves)⟩
  | lockGuards => exact ⟨_, rfl, moves_quiet (moves_managed _ (stays_lockGuardsItem _).moves)⟩
  | setStoredGuard index value =>
    exact ⟨_, rfl, moves_quiet (moves_managed _ (stays_setStoredGuardItem _ index value).moves)⟩
  | eepromRead addr => exact ⟨_, rfl, moves_quiet (moves_managed _ (stays_eepromReadItem _ addr).moves)⟩
  | eepromWrite addr data => exact ⟨_, rfl, moves_quiet (moves_managed _ (stays_eepromWriteItem _ addr data).moves)⟩
  | reload => exact ⟨_, rfl, moves_quiet (moves_managed _ (moves_reloadItem _))⟩
  | linkReset => exact ⟨_, rfl, moves_quiet (moves_managed _ (moves_linkResetItem _))⟩
  | managementWriteTransaction bytes =>
    exact ⟨_, rfl, moves_quiet (moves_managed _ (moves_writeTransaction _ bytes ⟨_, rfl⟩))⟩
  | randomReadEnd => exact ⟨_, rfl, moves_quiet (moves_linkRead _)⟩
  | acknowledgePollingEnd =>
    refine ⟨_, rfl, moves_quiet ?_⟩
    split
    · exact moves_expirePolling _
    · exact moves_linkPolled _
  | missingAcknowledge => exact ⟨_, rfl, moves_quiet (moves_linkMissed _)⟩
  | pollingWindowExpiry =>
    refine ⟨_, rfl, moves_quiet ?_⟩
    split
    · exact (Stays.of_eq s.quiet).moves.trans (moves_expirePolling _)
    · exact .refl
  | powerLoss => exact ⟨_, rfl, (GroupMove.cutsPower s _ (.inr rfl) (by decide)).one⟩
  | dataByteAcknowledge => exact ⟨_, rfl, moves_quiet (stays_linkAcknowledged _).moves⟩

/-- A command that answers a next state reaches it by a chain of its moves. -/
theorem moves_of_exec {c : Instr} {s t : State} (h : exec c s = .next t) : Moves c s t := by
  obtain ⟨t', eq, moves⟩ := exec_moves c s
  rw [h] at eq
  cases eq
  exact moves

/-- A law that no removal of a waiting command breaks, and that every move of every command keeps, is kept by every
step. -/
theorem step_keeps {P : State → Prop} (pend : ∀ (s : State) (rest : List Instr), P s → P { s with pending := rest })
    (move : ∀ (c : Instr) (s t : State), Move c s t → P s → P t) {s t : State} (hs : P s)
    (h : step s = .next t) : P t := by
  unfold step at h
  split at h
  · cases h
    exact (moves_clockCycle (c := .tick) s).keeps (move _) hs
  · next c rest _ => exact (moves_of_exec h).keeps (move _) (pend s rest hs)

end Sys2Proof.Machine
end

section
/-! SUPPORT. Link reset, field by field (R50, R68, R96, R104, R127, R171): first its work on one slot, then on all four,
then the whole of it. -/

namespace Sys2Proof.Machine

/-- The slot states that a link reset ends, counted as discarded (R50). -/
def SlotState.discardedByReset : SlotState → Bool
  | .filling | .ready | .queued => true
  | .free | .aborted | .sealing | .sealed | .applying => false

/-- The slot states that a link reset frees (R50, R68). -/
def SlotState.freedByReset (x : SlotState) : Bool := x.discardedByReset || decide (x = .aborted)

section

variable (s : State)

/-! ### One slot -/

/-- A freed slot is empty, and the other slots stay. -/
theorem State.freeSlot_slot (j k : SlotId) : (s.freeSlot k).slot j = if j = k then Slot.empty else s.slot j := by
  rw [State.freeSlot, State.setSlot_slot]
  by_cases h : j = k
  · simp [h]
  · rw [if_neg h, if_neg (Ne.symm h), State.slot_congr (s.releaseEntries_slots k)]

/-- The entries that stay when a slot is freed are those of the other slots. -/
theorem State.freeSlot_entry_iff (k : SlotId) (i : Fin 96) (e : StagingEntry) :
    (s.freeSlot k).pool[i] = some e ↔ s.pool[i] = some e ∧ e.slot ≠ k :=
  s.releaseEntries_entry_iff k i e

/-- The work of a link reset on a slot that it neither discards nor frees. -/
theorem State.linkResetSlot_of_kept {k : SlotId} (h : (s.slot k).state.freedByReset = false) :
    s.linkResetSlot k = s := by
  cases state : (s.slot k).state <;> simp_all [SlotState.freedByReset, SlotState.discardedByReset, State.linkResetSlot]

/-- The work of a link reset on a slot that it discards. -/
theorem State.linkResetSlot_of_discarded {k : SlotId} (h : (s.slot k).state.discardedByReset = true) :
    s.linkResetSlot k = (((s.freeSlot k).setBarrier k none).count .discardedGroups).recordEnd k
      ((s.slot k).owner.getD 0) .discardedReset := by
  cases state : (s.slot k).state <;> simp_all [SlotState.discardedByReset, State.linkResetSlot]

/-- The work of a link reset on an ABORTED slot. -/
theorem State.linkResetSlot_of_aborted {k : SlotId} (h : (s.slot k).state = .aborted) :
    s.linkResetSlot k = s.freeSlot k := by
  simp [State.linkResetSlot, h]

/-- A slot is discarded, ABORTED, or kept by a link reset. -/
theorem State.resetCases (k : SlotId) :
    (s.slot k).state.discardedByReset = true ∨ (s.slot k).state = .aborted ∨
      (s.slot k).state.freedByReset = false := by
  cases (s.slot k).state <;> simp [SlotState.freedByReset, SlotState.discardedByReset]

/-- A slot that a link reset discards, or that is ABORTED, is freed by it. -/
theorem SlotState.freedByReset_of_discarded {x : SlotState} (h : x.discardedByReset = true) :
    x.freedByReset = true := by
  simp [SlotState.freedByReset, h]

theorem State.linkResetSlot_slot (j k : SlotId) :
    (s.linkResetSlot k).slot j = if j = k ∧ (s.slot k).state.freedByReset = true then Slot.empty else s.slot j := by
  obtain h | h | h := s.resetCases k
  · rw [s.linkResetSlot_of_discarded h, State.slot_congr (s := s.freeSlot k) (by simp), State.freeSlot_slot]
    simp [SlotState.freedByReset_of_discarded h]
  · rw [s.linkResetSlot_of_aborted h, State.freeSlot_slot]
    simp [h, SlotState.freedByReset]
  · rw [s.linkResetSlot_of_kept h]
    simp [h]

theorem State.linkResetSlot_entry_iff (k : SlotId) (i : Fin 96) (e : StagingEntry) :
    (s.linkResetSlot k).pool[i] = some e ↔
      s.pool[i] = some e ∧ ¬ (e.slot = k ∧ (s.slot k).state.freedByReset = true) := by
  obtain h | h | h := s.resetCases k
  · have pool : (s.linkResetSlot k).pool = (s.freeSlot k).pool := by rw [s.linkResetSlot_of_discarded h]; simp
    rw [pool, State.freeSlot_entry_iff]
    simp [SlotState.freedByReset_of_discarded h]
  · rw [s.linkResetSlot_of_aborted h, State.freeSlot_entry_iff]
    simp [h, SlotState.freedByReset]
  · rw [s.linkResetSlot_of_kept h]
    simp [h]

theorem State.linkResetSlot_barrier (j k : SlotId) :
    (s.linkResetSlot k).posted.barriers[j] =
      if j = k ∧ (s.slot k).state.discardedByReset = true then none else s.posted.barriers[j] := by
  obtain h | h | h := s.resetCases k
  · have set : ((s.posted.barriers.set k none)[j] : Option Barrier) = if j = k then none else s.posted.barriers[j] := by
      simp only [Fin.getElem_fin, Vector.getElem_set, Fin.ext_iff, eq_comm (a := (k : Nat))]
    have barriers : (s.linkResetSlot k).posted.barriers = s.posted.barriers.set k none := by
      rw [s.linkResetSlot_of_discarded h, State.recordEnd_posted, State.count_posted, State.setBarrier,
        State.freeSlot_posted]
    rw [barriers, set]
    simp [h]
  · rw [s.linkResetSlot_of_aborted h, State.freeSlot_posted]
    simp [h, SlotState.discardedByReset]
  · rw [s.linkResetSlot_of_kept h]
    simp only [SlotState.freedByReset, Bool.or_eq_false_iff] at h
    simp [h.1]

theorem State.linkResetSlot_counter (k : SlotId) (c : Counter) :
    (s.linkResetSlot k).counter c =
      if c = .discardedGroups ∧ (s.slot k).state.discardedByReset = true then saturatingSucc (s.counter c)
      else s.counter c := by
  obtain h | h | h := s.resetCases k
  · have freed : ((s.freeSlot k).setBarrier k none).counter c = s.counter c := by
      rw [State.counter, State.setBarrier_ml, State.freeSlot_ml, State.counter]
    have ended : ∀ (x : State) (src : Source) (o : EndOutcome), (x.recordEnd k src o).counter c = x.counter c :=
      fun _ _ _ => rfl
    rw [s.linkResetSlot_of_discarded h, ended, State.count_counter, freed]
    by_cases hc : c = .discardedGroups
    · simp only [hc, h, and_self, if_true]
      rw [← hc, freed]
    · rw [if_neg (Ne.symm hc), if_neg (fun x => hc x.1)]
  · rw [s.linkResetSlot_of_aborted h]
    simp [h, SlotState.discardedByReset, State.counter]
  · rw [s.linkResetSlot_of_kept h]
    simp only [SlotState.freedByReset, Bool.or_eq_false_iff] at h
    simp [h.1]

theorem State.linkResetSlot_lastEnd (k : SlotId) :
    (s.linkResetSlot k).ml.lastEnd =
      if (s.slot k).state.discardedByReset = true then
        some { slot := k, source := (s.slot k).owner.getD 0, outcome := .discardedReset }
      else s.ml.lastEnd := by
  obtain h | h | h := s.resetCases k
  · rw [s.linkResetSlot_of_discarded h, if_pos h]
    rfl
  · rw [s.linkResetSlot_of_aborted h]
    simp [h, SlotState.discardedByReset]
  · rw [s.linkResetSlot_of_kept h]
    simp only [SlotState.freedByReset, Bool.or_eq_false_iff] at h
    simp [h.1]

/-! ### One slot after the other -/

/-- An empty slot is FREE, and a link reset leaves it. -/
theorem Slot.empty_kept : Slot.empty.state.freedByReset = false := rfl

theorem State.foldl_linkResetSlot_slot (l : List SlotId) (j : SlotId) :
    (l.foldl State.linkResetSlot s).slot j =
      if j ∈ l ∧ (s.slot j).state.freedByReset = true then Slot.empty else s.slot j := by
  induction l generalizing s with
  | nil => simp
  | cons k l ih =>
    rw [List.foldl_cons, ih, State.linkResetSlot_slot]
    by_cases hj : j = k
    · subst hj
      by_cases freed : (s.slot j).state.freedByReset = true <;> simp [freed, Slot.empty_kept]
    · simp [hj]

theorem State.foldl_linkResetSlot_entry_iff (l : List SlotId) (i : Fin 96) (e : StagingEntry) :
    (l.foldl State.linkResetSlot s).pool[i] = some e ↔
      s.pool[i] = some e ∧ ¬ (e.slot ∈ l ∧ (s.slot e.slot).state.freedByReset = true) := by
  induction l generalizing s with
  | nil => simp
  | cons k l ih =>
    rw [List.foldl_cons, ih, State.linkResetSlot_entry_iff, State.linkResetSlot_slot]
    by_cases hk : e.slot = k
    · subst hk
      by_cases freed : (s.slot e.slot).state.freedByReset = true <;> simp [freed]
    · simp [hk]

theorem State.foldl_linkResetSlot_barrier (l : List SlotId) (j : SlotId) :
    (l.foldl State.linkResetSlot s).posted.barriers[j] =
      if j ∈ l ∧ (s.slot j).state.discardedByReset = true then none else s.posted.barriers[j] := by
  induction l generalizing s with
  | nil => simp
  | cons k l ih =>
    rw [List.foldl_cons, ih, State.linkResetSlot_barrier, State.linkResetSlot_slot]
    by_cases hj : j = k
    · subst hj
      by_cases discarded : (s.slot j).state.discardedByReset = true
      · simp [discarded]
      · by_cases freed : (s.slot j).state.freedByReset = true <;> simp [discarded, freed]
        exact fun _ h => absurd h (by decide)
    · simp [hj]

/-- The slots that a link reset has not come to yet are as they were. -/
theorem State.linkResetSlot_slot_ne {j k : SlotId} (h : j ≠ k) : (s.linkResetSlot k).slot j = s.slot j := by
  rw [State.linkResetSlot_slot, if_neg (fun x => h x.1)]

theorem State.foldl_linkResetSlot_counter {l : List SlotId} (nodup : l.Nodup) (c : Counter) :
    (l.foldl State.linkResetSlot s).counter c =
      if c = .discardedGroups then
        saturatingSucc^[l.countP fun k => (s.slot k).state.discardedByReset] (s.counter c)
      else s.counter c := by
  induction l generalizing s with
  | nil => simp
  | cons k l ih =>
    obtain ⟨fresh, nodup⟩ := List.nodup_cons.1 nodup
    have ne : ∀ j, j ∈ l → j ≠ k := fun j hj h => fresh (h ▸ hj)
    have same : (l.countP fun j => ((s.linkResetSlot k).slot j).state.discardedByReset) =
        l.countP fun j => (s.slot j).state.discardedByReset :=
      List.countP_congr fun j hj => by rw [s.linkResetSlot_slot_ne (ne j hj)]
    rw [List.foldl_cons, ih _ nodup, same, State.linkResetSlot_counter, List.countP_cons]
    by_cases hc : c = .discardedGroups
    · by_cases discarded : (s.slot k).state.discardedByReset = true <;>
        simp [hc, discarded, Function.iterate_succ_apply]
    · simp [hc]

theorem State.foldl_linkResetSlot_lastEnd {l : List SlotId} (nodup : l.Nodup) :
    (l.foldl State.linkResetSlot s).ml.lastEnd =
      match l.reverse.find? fun k => (s.slot k).state.discardedByReset with
      | none => s.ml.lastEnd
      | some k => some { slot := k, source := (s.slot k).owner.getD 0, outcome := .discardedReset } := by
  induction l generalizing s with
  | nil => rfl
  | cons k l ih =>
    obtain ⟨fresh, nodup⟩ := List.nodup_cons.1 nodup
    have ne : ∀ j, j ∈ l → j ≠ k := fun j hj h => fresh (h ▸ hj)
    have same : (l.reverse.find? fun j => ((s.linkResetSlot k).slot j).state.discardedByReset) =
        l.reverse.find? fun j => (s.slot j).state.discardedByReset := by
      refine List.find?_congr fun j hj => ?_
      rw [s.linkResetSlot_slot_ne (ne j (List.mem_reverse.1 hj))]
    rw [List.foldl_cons, ih _ nodup, same, List.reverse_cons, List.find?_append]
    cases found : l.reverse.find? fun j => (s.slot j).state.discardedByReset with
    | some j =>
      have hj := List.mem_reverse.1 (List.mem_of_find?_eq_some found)
      simp [s.linkResetSlot_slot_ne (ne j hj)]
    | none =>
      by_cases discarded : (s.slot k).state.discardedByReset = true <;>
        simp [State.linkResetSlot_lastEnd, discarded]

/-! ### The whole link reset -/

theorem State.dropHeldRead_slots : s.dropHeldRead.slots = s.slots := by
  obtain ⟨_, h⟩ := s.dropHeldRead_eq; rw [h]
theorem State.dropHeldRead_pool : s.dropHeldRead.pool = s.pool := by
  obtain ⟨_, h⟩ := s.dropHeldRead_eq; rw [h]
theorem State.dropHeldRead_ml : s.dropHeldRead.ml = s.ml := by
  obtain ⟨_, h⟩ := s.dropHeldRead_eq; rw [h]
theorem State.dropHeldRead_posted : s.dropHeldRead.posted = s.posted := by
  obtain ⟨_, h⟩ := s.dropHeldRead_eq; rw [h]
theorem State.dropHeldRead_slot (k : SlotId) : s.dropHeldRead.slot k = s.slot k :=
  State.slot_congr s.dropHeldRead_slots k

theorem allSlots_nodup : allSlots.Nodup := by decide

/-- The slots of a link reset, one after the other, the held READ dropped first. -/
def State.resetSlots : State := allSlots.foldl State.linkResetSlot s.dropHeldRead

theorem State.linkReset_slots_eq : s.linkReset.slots = s.resetSlots.slots := by
  simp [State.linkReset, State.resetSlots]
theorem State.linkReset_pool_eq : s.linkReset.pool = s.resetSlots.pool := by
  simp [State.linkReset, State.resetSlots]
theorem State.linkReset_ml_eq : s.linkReset.ml = s.resetSlots.ml := by
  simp [State.linkReset, State.resetSlots]
theorem State.linkReset_barriers_eq : s.linkReset.posted.barriers = s.resetSlots.posted.barriers := by
  simp [State.linkReset, State.resetSlots, State.blockWrapped, State.mapPosted]
theorem State.linkReset_held_eq : s.linkReset.held = s.resetSlots.held := by
  simp [State.linkReset, State.resetSlots]

/-- The work of a link reset on the slots leaves the posted entries and the Source Table. -/
theorem State.resetSlots_eq : ∃ bus slots pool barriers counters lastEnd, s.resetSlots =
    { s with held := none, bus, slots, pool, posted := { s.posted with barriers },
             ml := { s.ml with counters, lastEnd } } := by
  have fold : ∀ (l : List SlotId) (x : State),
      ∃ slots pool barriers counters lastEnd, l.foldl State.linkResetSlot x =
        { x with slots, pool, posted := { x.posted with barriers }, ml := { x.ml with counters, lastEnd } } := by
    intro l
    induction l with
    | nil => intro x; exact ⟨_, _, _, _, _, rfl⟩
    | cons k l ih =>
      intro x
      obtain ⟨_, _, _, _, _, h⟩ := x.linkResetSlot_eq k
      obtain ⟨a, b, c, d, e, h'⟩ := ih (x.linkResetSlot k)
      exact ⟨a, b, c, d, e, by rw [List.foldl_cons, h', h]⟩
  obtain ⟨bus, dropped⟩ := s.dropHeldRead_eq
  obtain ⟨a, b, c, d, e, h⟩ := fold allSlots s.dropHeldRead
  exact ⟨bus, a, b, c, d, e, by rw [State.resetSlots, h, dropped]⟩

theorem State.resetSlots_entries : s.resetSlots.posted.entries = s.posted.entries := by
  obtain ⟨_, _, _, _, _, _, h⟩ := s.resetSlots_eq
  rw [h]

theorem State.resetSlots_sources : s.resetSlots.sources = s.sources := by
  obtain ⟨_, _, _, _, _, _, h⟩ := s.resetSlots_eq
  rw [h]

/-- Combining is blocked into each entry whose epoch is its source's new one (R96). -/
theorem State.linkReset_entries_eq : s.linkReset.posted.entries = s.resetSlots.posted.entries.map fun e =>
    if e.epoch = (s.source e.source).epoch + 1 then { e with combine := false } else e := by
  have epoch : ∀ i, ((s.resetSlots.mapSources fun _ e => { SourceEntry.empty with epoch := e.epoch + 1 }).source i).epoch =
      (s.source i).epoch + 1 := fun i => by
    rw [State.mapSources_source, State.source_congr s.resetSlots_sources]
  have entries : s.linkReset.posted.entries =
      (State.blockWrapped (s.resetSlots.mapSources fun _ e => { SourceEntry.empty with epoch := e.epoch + 1 })
        fun _ => true).posted.entries := rfl
  rw [entries, State.blockWrapped, State.mapPosted]
  simp only [true_and, epoch, State.mapSources_posted]

theorem State.linkReset_slot (k : SlotId) :
    s.linkReset.slot k = if (s.slot k).state.freedByReset = true then Slot.empty else s.slot k := by
  rw [State.slot_congr s.linkReset_slots_eq, State.resetSlots, State.foldl_linkResetSlot_slot, State.dropHeldRead_slot]
  simp [mem_allSlots]

theorem State.linkReset_entry_iff (i : Fin 96) (e : StagingEntry) :
    s.linkReset.pool[i] = some e ↔ s.pool[i] = some e ∧ (s.slot e.slot).state.freedByReset = false := by
  rw [State.linkReset_pool_eq, State.resetSlots, State.foldl_linkResetSlot_entry_iff, State.dropHeldRead_slot,
    State.dropHeldRead_pool]
  simp [mem_allSlots]

theorem State.linkReset_barrier (k : SlotId) :
    s.linkReset.posted.barriers[k] =
      if (s.slot k).state.discardedByReset = true then none else s.posted.barriers[k] := by
  rw [State.linkReset_barriers_eq, State.resetSlots, State.foldl_linkResetSlot_barrier, State.dropHeldRead_slot,
    State.dropHeldRead_posted]
  simp [mem_allSlots]

theorem State.linkReset_counter (c : Counter) :
    s.linkReset.counter c =
      if c = .discardedGroups then
        saturatingSucc^[allSlots.countP fun k => (s.slot k).state.discardedByReset] (s.counter c)
      else s.counter c := by
  have h := s.dropHeldRead.foldl_linkResetSlot_counter allSlots_nodup c
  have dropped : s.dropHeldRead.counter c = s.counter c := by rw [State.counter, State.dropHeldRead_ml, State.counter]
  simp only [State.dropHeldRead_slot, dropped] at h
  rw [State.counter, State.linkReset_ml_eq]
  exact h

theorem State.linkReset_lastEnd :
    s.linkReset.ml.lastEnd =
      match allSlots.reverse.find? fun k => (s.slot k).state.discardedByReset with
      | none => s.ml.lastEnd
      | some k => some { slot := k, source := (s.slot k).owner.getD 0, outcome := .discardedReset } := by
  have h := s.dropHeldRead.foldl_linkResetSlot_lastEnd allSlots_nodup
  simp only [State.dropHeldRead_slot, State.dropHeldRead_ml] at h
  rw [State.linkReset_ml_eq]
  exact h

@[simp] theorem State.linkReset_journal :
    s.linkReset.journal = { s.journal with commitQueue := [], ringWait := false } := by
  obtain ⟨_, _, _, _, _, _, _, _, _, h⟩ := s.linkReset_eq
  rw [h]

@[simp] theorem State.linkReset_held : s.linkReset.held = none := by
  obtain ⟨_, _, _, _, _, _, h⟩ := s.resetSlots_eq
  rw [State.linkReset_held_eq, h]

/-- The slots that keep their state at a link reset are SEALING, SEALED, APPLYING or FREE. -/
theorem SlotState.freedByReset_eq_false_iff {x : SlotState} :
    x.freedByReset = false ↔ x = .sealing ∨ x = .sealed ∨ x = .applying ∨ x = .free := by
  cases x <;> decide

theorem SlotState.discardedByReset_iff {x : SlotState} :
    x.discardedByReset = true ↔ x = .filling ∨ x = .ready ∨ x = .queued := by
  cases x <;> decide

end

end Sys2Proof.Machine
end

section
/-! SUPPORT. The laws of the Window Table and of the groups, their claims and their reservations, each kept by every move
and so by every step. -/

namespace Sys2Proof.Machine

/-! ### The Window Table -/

/-- The region in use and the page ranges of the windows stay. -/
structure TableStays (s t : State) : Prop where
  region : t.region = s.region
  range : ∀ i : WindowId, s.windows[i].SameRange t.windows[i]

theorem TableStays.of_eq {s t : State} (region : t.region = s.region) (windows : t.windows = s.windows) :
    TableStays s t :=
  ⟨region, fun i => by rw [windows]; exact .refl _⟩

/-- A table with the same ranges is as sound. -/
theorem TableStays.sound {s t : State} (h : TableStays s t) (hs : TableSound s) : TableSound t := by
  obtain ⟨pages, apart⟩ := hs
  refine ⟨fun i present => ?_, fun i j ne hi hj => ?_⟩
  · obtain ⟨p, b, l, g⟩ := h.range i
    rw [b, l, g, h.region]
    exact pages i (p ▸ present)
  · obtain ⟨pi, bi, li, gi⟩ := h.range i
    obtain ⟨pj, bj, lj, gj⟩ := h.range j
    rw [bi, li, gi, bj, lj, gj]
    exact apart i j ne (pi ▸ hi) (pj ▸ hj)

/-- A table with no present window is sound. -/
theorem tableSound_of_absent {s : State} (absent : ∀ i : WindowId, s.windows[i].present = false) : TableSound s :=
  ⟨fun i present => (Bool.false_ne_true ((absent i).symm.trans present)).elim,
    fun i _ _ present => (Bool.false_ne_true ((absent i).symm.trans present)).elim⟩

/-- The end of RELOAD's wait clears runtime guards at most. -/
theorem State.endReloadWait_range (s : State) (i : WindowId) : s.windows[i].SameRange s.endReloadWait.windows[i] := by
  have cleared := (Stays.clearRuntimeGuards s).range i
  unfold State.endReloadWait
  split
  · dsimp only
    split
    · split <;> exact cleared
    · split <;> exact .refl _
  · exact .refl _

/-- A group move leaves the Window Table, unless power is cut. -/
theorem GroupMove.table {c : Instr} {s t : State} (g : GroupMove c s t) :
    TableStays s t ∨ ∀ i : WindowId, t.windows[i].present = false := by
  cases g with
  | cutsPower power by_ down => exact .inr fun i => by simp [State.powerOnValues, State.reset, Window.empty]
  | resetsLink => exact .inl (.of_eq (by simp) (by simp))
  | takesApplyHead => exact .inl (.of_eq (by simp) (by simp))
  | stages k => exact .inl (.of_eq (by simp) (by simp))
  | discards src k => exact .inl (.of_eq (by simp) (by simp))
  | aborts k => exact .inl (.of_eq (by simp [State.abortSlot]) (by simp [State.abortSlot]))
  | retires k => exact .inl (.of_eq (by simp [State.retireSlot]) (by simp [State.retireSlot]))
  | writesHome k =>
    refine .inl ?_
    unfold State.homeWritten
    dsimp only
    split <;> exact .of_eq rfl rfl
  | opens | commits | beginsSeal | sealsWord | commitPoint => exact .inl (.of_eq rfl rfl)

/-- The tests of the image's pages are those of a sound table (R10, R159). -/
theorem State.install_tableSound {s : State} (valid : s.imageValid = true) : TableSound s.install := by
  simp only [State.imageValid, Bool.and_eq_true, decide_eq_true_eq, List.all_eq_true, List.mem_finRange,
    forall_true_left, Bool.or_eq_true] at valid
  obtain ⟨⟨_, pages⟩, apart⟩ := valid
  have range : ∀ i : WindowId, (s.imageWindow i false).SameRange s.install.windows[i] := by
    intro i
    simp only [State.install, Fin.getElem_fin, Vector.getElem_ofFn, State.imageWindow]
    split <;> exact ⟨rfl, rfl, rfl, rfl⟩
  refine ⟨fun i present => ?_, fun i j ne hi hj => ?_⟩
  · obtain ⟨p, b, l, g⟩ := range i
    rw [p] at present
    have := pages i
    simp only [Window.pagesValid, Window.apartFrom, present, Bool.not_true, Bool.false_or, Bool.and_eq_true,
      decide_eq_true_eq, Bool.or_eq_true] at this
    rw [b, l, g]
    exact ⟨by omega, by omega, by omega, s.imageRegion, rfl, this.2⟩
  · obtain ⟨pi, bi, li, gi⟩ := range i
    obtain ⟨pj, bj, lj, gj⟩ := range j
    rw [pi] at hi
    rw [pj] at hj
    rw [bi, li, gi, bj, lj, gj]
    have hij := apart i j
    have hji := apart j i
    simp only [Window.upstreamApart, Window.targetsApart, hi, hj, Bool.not_true, Bool.false_or, decide_eq_true_eq,
      Bool.or_eq_true, Fin.le_def] at hij hji
    have : (i : Nat) ≠ j := fun e => ne (Fin.ext e)
    omega

theorem Move.table {c : Instr} {s t : State} (m : Move c s t) (hs : TableSound s) : TableSound t := by
  cases m with
  | stays h => exact TableStays.sound ⟨h.region, h.range⟩ hs
  | groups g => exact g.table.elim (·.sound hs) tableSound_of_absent
  | installs op valid => exact State.install_tableSound valid
  | failsLoad op => exact tableSound_of_absent fun i => by simp [State.failLoad]
  | endsReloadWait => exact TableStays.sound ⟨by simp, s.endReloadWait_range⟩ hs
  | quiesces landed =>
    obtain ⟨_, _, h⟩ := s.enterQuiesced_eq
    exact TableStays.sound (by rw [h]; exact .of_eq rfl rfl) hs
  | removesHead landed =>
    refine TableStays.sound ?_ hs
    unfold State.removeHead
    split
    · exact .of_eq rfl rfl
    · exact .of_eq (by simp) (by simp)
  | finishesCell cell =>
    obtain ⟨_, _, h⟩ := s.mayFinishCell_eq cell
    exact TableStays.sound (by rw [h]; exact .of_eq rfl rfl) hs
  | clearsFlags | grants | completes | posts | blocks | scans => exact TableStays.sound (.of_eq (by simp) (by simp)) hs
  | warns | unwarns | activates | holdsRead | dropsRead | notesRingWait | releasesRing | reloads | recovers | writesCell
  | powersUp => exact TableStays.sound (.of_eq rfl rfl) hs

/-- Settles O59: the tests of a load are the law; no other move touches a present window's ranges or the region. -/
theorem stepKeepsTheTableSound : Obligations.StepKeepsTheTableSound :=
  fun _ _ hs h => step_keeps (fun _ _ => id) (fun _ _ _ => Move.table) hs h

end Sys2Proof.Machine
end

section
/-! SUPPORT. What the events of the groups do to slots, entries and list lengths; then the laws of claims, reservations
and groups. -/

namespace Sys2Proof.Machine

/-- The slots, the Staging Pool, the links, and what the engines have queued stay. -/
structure GroupsStay (s t : State) : Prop where
  slots : t.slots = s.slots
  pool : t.pool = s.pool
  link : ∀ i, (t.source i).link = (s.source i).link
  commitQueue : t.journal.commitQueue = s.journal.commitQueue
  sealWrites : t.journal.sealWrites = s.journal.sealWrites
  apply : t.apply = s.apply

theorem Stays.groups {s t : State} (h : Stays s t) : GroupsStay s t :=
  ⟨h.slots, h.pool, h.link, by rw [h.journal], by rw [h.journal], h.apply⟩

theorem GroupsStay.of_eq {s t : State} (slots : t.slots = s.slots) (pool : t.pool = s.pool)
    (sources : t.sources = s.sources) (journal : t.journal = s.journal) (apply : t.apply = s.apply) :
    GroupsStay s t :=
  ⟨slots, pool, fun i => by rw [State.source_congr sources], by rw [journal], by rw [journal], apply⟩

/-- Every move is an event of the groups, or leaves them as they are. -/
theorem Move.groups_or {c : Instr} {s t : State} (m : Move c s t) : GroupMove c s t ∨ GroupsStay s t := by
  cases m with
  | groups g => exact .inl g
  | stays h => exact .inr h.groups
  | quiesces landed =>
    obtain ⟨_, _, h⟩ := s.enterQuiesced_eq
    exact .inr (by rw [h]; exact .of_eq rfl rfl rfl rfl rfl)
  | removesHead landed =>
    refine .inr ?_
    unfold State.removeHead
    split
    · exact .of_eq rfl rfl rfl rfl rfl
    · exact ⟨by simp, by simp, (Stays.leaveWaitSets _ _ _).link, by simp, by simp, by simp⟩
  | finishesCell cell =>
    obtain ⟨_, _, h⟩ := s.mayFinishCell_eq cell
    exact .inr (by rw [h]; exact .of_eq rfl rfl rfl rfl rfl)
  | clearsFlags | grants | completes | posts | blocks | scans | endsReloadWait =>
    exact .inr (.of_eq (by simp) (by simp) (by simp) (by simp) (by simp))
  | warns | unwarns | activates | holdsRead | dropsRead | reloads | writesCell | powersUp | installs | failsLoad
  | notesRingWait | releasesRing | recovers =>
    exact .inr ⟨rfl, rfl, fun _ => rfl, rfl, rfl, rfl⟩

section

variable (s : State)

/-! ### Slots after the events -/

theorem State.takeSlot_slot (src : Source) (j k : SlotId) (n : Nat) :
    (s.takeSlot src k n).slot j =
      if k = j then { Slot.empty with state := .filling, owner := some src, declared := some n, remaining := some n,
                                      reservation := n }
      else s.slot j :=
  s.setSlot_slot j k _

theorem State.takeWrite_slot (j k : SlotId) (window : Option WindowId) :
    (s.takeWrite k window).slot j =
      if k = j then { s.slot k with
        window := if (s.slot k).window.isSome then (s.slot k).window else window,
        remaining := some ((s.slot k).remaining.getD 0 - 1),
        state := if (s.slot k).remaining.getD 0 - 1 = 0 then .ready else .filling }
      else s.slot j :=
  s.setSlot_slot j k _

theorem State.acceptCommit_slot (src : Source) (j k : SlotId) :
    (s.acceptCommit src k).slot j =
      if k = j then { s.slot k with state := .queued, remaining := none, reservation := s.slotLen k } else s.slot j :=
  s.setSlot_slot j k _

theorem State.beginSeal_slot (r : Region) (j k : SlotId) (rest : List SlotId) :
    (s.beginSeal r k rest).slot j =
      if k = j then { s.slot k with
        state := .sealing, seqNo := some s.nextSeqNo,
        position := some (if placementSize (s.slotLen k) ≤ r.size - s.journal.head then s.journal.head else 0),
        recordSize := some (placementSize (s.slotLen k)) }
      else s.slot j :=
  s.setSlot_slot j k _

theorem State.abortSlot_slot (j k : SlotId) (cause : AbortCause) :
    (s.abortSlot k cause).slot j =
      if k = j then { Slot.empty with state := .aborted, owner := (s.slot k).owner, cause := some cause }
      else s.slot j := by
  rw [State.abortSlot, State.setSlot_slot, State.slot_congr (s.releaseEntries_slots k)]

theorem State.abortSlot_entry_iff (k : SlotId) (cause : AbortCause) (i : Fin 96) (e : StagingEntry) :
    (s.abortSlot k cause).pool[i] = some e ↔ s.pool[i] = some e ∧ e.slot ≠ k := by
  rw [State.abortSlot, State.setSlot_pool]
  exact s.releaseEntries_entry_iff k i e

theorem State.sealSlot_slot (j k : SlotId) :
    (s.sealSlot k).slot j = if k = j then { s.slot k with state := .sealed } else s.slot j :=
  s.setSlot_slot j k _

theorem State.applySlot_slot (j k : SlotId) (rest : List SlotId) :
    (s.applySlot k rest).slot j =
      if k = j then { s.slot k with state := .applying, cursor := some 0 } else s.slot j :=
  s.setSlot_slot j k _

theorem State.retireSlot_slot (j k : SlotId) : (s.retireSlot k).slot j = if j = k then Slot.empty else s.slot j :=
  (State.slot_congr (s := s.freeSlot k) (t := s.retireSlot k) rfl j).trans (s.freeSlot_slot j k)

theorem State.retireSlot_entry_iff (k : SlotId) (i : Fin 96) (e : StagingEntry) :
    (s.retireSlot k).pool[i] = some e ↔ s.pool[i] = some e ∧ e.slot ≠ k :=
  s.freeSlot_entry_iff k i e

/-- The Apply Engine is busy or its queue is empty, or it takes the head, which is APPLYING from its first position. -/
theorem State.takeApplyHead_cases :
    s.takeApplyHead = s ∨ ∃ k rest, s.apply = { queue := k :: rest, applying := none } ∧ s.takeApplyHead =
      s.applySlot k rest := by
  unfold State.takeApplyHead
  split
  · next k rest idle head => exact .inr ⟨k, rest, by rw [← idle, ← head], rfl⟩
  · exact .inl rfl

/-- A home write moves the cursor, or begins the phase RETIRE. -/
theorem State.homeWritten_cases (k : SlotId) :
    s.homeWritten k = s.setSlot k { s.slot k with cursor := some ((s.slot k).cursor.getD 0 + 1) } ∨
    s.homeWritten k = { s with apply := { s.apply with applying := some (k, .retire) } } := by
  unfold State.homeWritten
  dsimp only
  split
  · exact .inl rfl
  · exact .inr rfl

/-! ### The Staging Pool after a staged write -/

/-- A write is staged in a new entry, merged, or finds no entry free. -/
theorem State.stage_cases (k : SlotId) (word : Addr) (mask : Mask) (data : Word) :
    (∃ i : Fin 96, s.claimOf word = none ∧ s.freeEntry = some i ∧
      s.stage k word mask data = { s with
        pool := s.pool.set i (some { slot := k, word, data := maskedData data mask, mask, position := s.slotLen k }) }) ∨
    ((∃ e, s.claimOf word = some e) ∧ s.stage k word mask data = s.stageMerge k word mask data) ∨
    (s.claimOf word = none ∧ s.freeEntry = none ∧ s.stage k word mask data = s) := by
  cases claim : s.claimOf word with
  | some e => exact .inr (.inl ⟨⟨e, rfl⟩, by simp [State.stage, claim]⟩)
  | none =>
    cases free : s.freeEntry with
    | none => exact .inr (.inr ⟨rfl, rfl, by simp [State.stage, State.stageNew, claim, free]⟩)
    | some i => exact .inl ⟨i, rfl, rfl, by simp [State.stage, State.stageNew, claim, free]⟩

theorem State.stageMerge_entry (k : SlotId) (word : Addr) (mask : Mask) (data : Word) (i : Fin 96) :
    (s.stageMerge k word mask data).pool[i] = s.pool[i].map (mergeEntry k word mask data) := by
  simp [State.stageMerge]

@[simp] theorem mergeEntry_slot (k : SlotId) (word : Addr) (mask : Mask) (data : Word) (e : StagingEntry) :
    (mergeEntry k word mask data e).slot = e.slot := by
  unfold mergeEntry
  split <;> rfl

@[simp] theorem mergeEntry_word (k : SlotId) (word : Addr) (mask : Mask) (data : Word) (e : StagingEntry) :
    (mergeEntry k word mask data e).word = e.word := by
  unfold mergeEntry
  split <;> rfl

/-- One entry of a pool put. -/
theorem pool_set_entry (pool : Pool) (i j : Fin 96) (e : Option StagingEntry) :
    (pool.set i e)[j] = if i = j then e else pool[j] := by
  simp only [Fin.getElem_fin, Vector.getElem_set, Fin.ext_iff]

/-! ### The claims -/

end

/-- The claims stay sound when every entry was there with its word and slot, and its slot keeps claims. -/
theorem ClaimsSound.of_entries {s t : State} (h : ClaimsSound s)
    (entry : ∀ (i : Fin 96) (e : StagingEntry), t.pool[i] = some e →
      ∃ f, s.pool[i] = some f ∧ f.word = e.word ∧ f.slot = e.slot)
    (claims : ∀ (i : Fin 96) (e : StagingEntry), t.pool[i] = some e → (s.slot e.slot).state.claims = true →
      (t.slot e.slot).state.claims = true) : ClaimsSound t := by
  obtain ⟨unique, kept⟩ := h
  refine ⟨fun i j e f he hf word => ?_, fun i e he => ?_⟩
  · obtain ⟨e', he', we, _⟩ := entry i e he
    obtain ⟨f', hf', wf, _⟩ := entry j f hf
    exact unique i j e' f' he' hf' (by rw [we, wf, word])
  · obtain ⟨e', he', _, slot⟩ := entry i e he
    exact claims i e he (slot ▸ kept i e' he')

/-- The pool stays, and one slot takes a state that keeps claims. -/
theorem ClaimsSound.of_slot {s t : State} (h : ClaimsSound s) (pool : t.pool = s.pool) {k : SlotId}
    (self : (t.slot k).state.claims = true) (others : ∀ j, k ≠ j → t.slot j = s.slot j) : ClaimsSound t := by
  refine h.of_entries (fun i e he => ⟨e, pool ▸ he, rfl, rfl⟩) fun i e _ claims => ?_
  by_cases hk : k = e.slot
  · rw [← hk]; exact self
  · rw [others _ hk]; exact claims

/-- One slot's entries go, and the other slots stay. -/
theorem ClaimsSound.of_release {s t : State} (h : ClaimsSound s) {k : SlotId}
    (entry : ∀ (i : Fin 96) (e : StagingEntry), t.pool[i] = some e ↔ s.pool[i] = some e ∧ e.slot ≠ k)
    (others : ∀ j, k ≠ j → t.slot j = s.slot j) : ClaimsSound t := by
  refine h.of_entries (fun i e he => ⟨e, ((entry i e).1 he).1, rfl, rfl⟩) fun i e he claims => ?_
  rw [others _ (((entry i e).1 he).2 ·.symm)]
  exact claims

/-- A new entry claims a word that no entry claims, for a slot that keeps claims. -/
theorem ClaimsSound.of_new_entry {s t : State} (h : ClaimsSound s) {i : Fin 96} {e : StagingEntry}
    (pool : t.pool = s.pool.set i (some e)) (fresh : s.claimOf e.word = none)
    (self : (t.slot e.slot).state.claims = true) (others : ∀ j, e.slot ≠ j → t.slot j = s.slot j) :
    ClaimsSound t := by
  obtain ⟨unique, kept⟩ := h
  have entry : ∀ (j : Fin 96) (f : StagingEntry), t.pool[j] = some f →
      (j = i ∧ f = e) ∨ (j ≠ i ∧ s.pool[j] = some f) := by
    intro j f hf
    rw [pool, pool_set_entry] at hf
    by_cases hj : i = j
    · rw [if_pos hj] at hf; cases hf; exact .inl ⟨hj.symm, rfl⟩
    · rw [if_neg hj] at hf; exact .inr ⟨Ne.symm hj, hf⟩
  refine ⟨fun j j' f f' hf hf' word => ?_, fun j f hf => ?_⟩
  · obtain ⟨rfl, rfl⟩ | ⟨_, hf⟩ := entry j f hf <;> obtain ⟨rfl, rfl⟩ | ⟨_, hf'⟩ := entry j' f' hf'
    · rfl
    · exact absurd word.symm (s.claimOf_none fresh j' hf')
    · exact absurd word (s.claimOf_none fresh j hf)
    · exact unique j j' f f' hf hf' word
  · by_cases hk : e.slot = f.slot
    · rw [← hk]; exact self
    · obtain ⟨_, rfl⟩ | ⟨_, hf⟩ := entry j f hf
      · exact absurd rfl hk
      · rw [others _ hk]; exact kept j f hf

theorem GroupsStay.claims {s t : State} (h : GroupsStay s t) (hs : ClaimsSound s) : ClaimsSound t :=
  hs.of_entries (fun i e he => ⟨e, h.pool ▸ he, rfl, rfl⟩) fun i e _ claims => by
    rw [State.slot_congr h.slots]; exact claims

/-- The states of a slot behind a staged write keep claims. -/
theorem claims_of_takeWrite (left : Nat) :
    (if left = 0 then SlotState.ready else SlotState.filling).claims = true := by
  split <;> rfl

/-- The slot behind a staged write: its window fixed, its count one lower, READY at 0 (R37). -/
def Slot.afterWrite (x : Slot) (window : Option WindowId) : Slot :=
  { x with window := if x.window.isSome then x.window else window, remaining := some (x.remaining.getD 0 - 1),
           state := if x.remaining.getD 0 - 1 = 0 then .ready else .filling }

/-- A staged write changes its slot alone, whatever it does to the Staging Pool. -/
theorem State.stageWrite_slot (s : State) (j k : SlotId) (word : Addr) (mask : Mask) (data : Word)
    (window : Option WindowId) :
    ((s.stage k word mask data).takeWrite k window).slot j =
      if k = j then (s.slot k).afterWrite window else s.slot j := by
  rw [State.takeWrite_slot, State.slot_congr (s.stage_slots k word mask data) k,
    State.slot_congr (s.stage_slots k word mask data) j]
  rfl

/-- A staged write keeps the claims sound. -/
theorem State.stageWrite_claimsSound {s : State} {k : SlotId} {word : Addr} {mask : Mask} {data : Word}
    {window : Option WindowId} (hs : ClaimsSound s) :
    ClaimsSound ((s.stage k word mask data).takeWrite k window) := by
  have self : (((s.stage k word mask data).takeWrite k window).slot k).state.claims = true := by
    rw [State.stageWrite_slot, if_pos rfl]
    exact claims_of_takeWrite _
  have others : ∀ j, k ≠ j → ((s.stage k word mask data).takeWrite k window).slot j = s.slot j := fun j hj => by
    rw [State.stageWrite_slot, if_neg hj]
  obtain ⟨i, fresh, _, h⟩ | ⟨_, h⟩ | ⟨_, _, h⟩ := s.stage_cases k word mask data
  · exact hs.of_new_entry (by rw [State.takeWrite_pool, h]) fresh self others
  · refine hs.of_entries (fun i e he => ?_) fun i e _ claims => ?_
    · rw [State.takeWrite_pool, h, State.stageMerge_entry, Option.map_eq_some_iff] at he
      obtain ⟨f, hf, rfl⟩ := he
      exact ⟨f, hf, (mergeEntry_word _ _ _ _ f).symm, (mergeEntry_slot _ _ _ _ f).symm⟩
    · by_cases hk : k = e.slot
      · rw [← hk]; exact self
      · rw [others _ hk]; exact claims
  · exact hs.of_slot (by rw [State.takeWrite_pool, h]) self others

theorem GroupMove.claims {c : Instr} {s t : State} (g : GroupMove c s t) (hs : ClaimsSound s) : ClaimsSound t := by
  cases g with
  | opens src k n unlinked free pos fits =>
    exact hs.of_slot rfl (by rw [State.takeSlot_slot, if_pos rfl]; rfl)
      fun j hj => by rw [State.takeSlot_slot, if_neg hj]
  | stages k word mask data window filling own => exact State.stageWrite_claimsSound hs
  | aborts k cause open_ =>
    exact hs.of_release (s.abortSlot_entry_iff k cause) fun j hj => by rw [State.abortSlot_slot, if_neg hj]
  | commits src k linked ready running up =>
    exact hs.of_slot rfl (by rw [State.acceptCommit_slot, if_pos rfl]; rfl)
      fun j hj => by rw [State.acceptCommit_slot, if_neg hj]
  | discards src k linked open_ =>
    refine hs.of_release (k := k) (fun i e => ?_) fun j hj => ?_
    · rw [State.setLink_pool]; exact s.freeSlot_entry_iff k i e
    · rw [State.slot_congr (State.setLink_slots _ _ _), State.freeSlot_slot, if_neg (Ne.symm hj)]
  | resetsLink =>
    refine hs.of_entries (fun i e he => ⟨e, ((s.linkReset_entry_iff i e).1 he).1, rfl, rfl⟩) fun i e he claims => ?_
    rw [State.linkReset_slot, if_neg (by simp [((s.linkReset_entry_iff i e).1 he).2])]
    exact claims
  | beginsSeal r k rest region head due =>
    exact hs.of_slot rfl (by rw [State.beginSeal_slot, if_pos rfl]; rfl)
      fun j hj => by rw [State.beginSeal_slot, if_neg hj]
  | sealsWord landed more => exact hs
  | commitPoint k landed sealing =>
    exact hs.of_slot rfl (by rw [State.sealSlot_slot, if_pos rfl]; rfl)
      fun j hj => by rw [State.sealSlot_slot, if_neg hj]
  | takesApplyHead =>
    obtain h | ⟨k, rest, _, h⟩ := s.takeApplyHead_cases <;> rw [h]
    · exact hs
    · exact hs.of_slot rfl (by rw [State.applySlot_slot, if_pos rfl]; rfl)
        fun j hj => by rw [State.applySlot_slot, if_neg hj]
  | writesHome k applying landed =>
    obtain h | h := s.homeWritten_cases k <;> rw [h]
    · refine hs.of_entries (fun i e he => ⟨e, he, rfl, rfl⟩) fun i e _ claims => ?_
      rw [State.setSlot_slot]
      split
      · next hk => rw [← hk] at claims; exact claims
      · exact claims
    · exact hs
  | retires k applying landed =>
    exact hs.of_release (s.retireSlot_entry_iff k) fun j hj => by rw [State.retireSlot_slot, if_neg (Ne.symm hj)]
  | cutsPower power by_ down =>
    have none : ∀ i : Fin 96, (s.cutMemory.cutCell.powerOnValues power).pool[i] = none := by
      intro i
      simp [State.powerOnValues, State.reset]
    exact ⟨fun i _ e _ he => by simp [none i] at he, fun i e he => by simp [none i] at he⟩

theorem Move.claims {c : Instr} {s t : State} (m : Move c s t) (hs : ClaimsSound s) : ClaimsSound t :=
  m.groups_or.elim (·.claims hs) (·.claims hs)

/-- Settles O55: a new entry is made for an unclaimed word of a FILLING slot, and a slot that leaves the claiming states
loses its entries. -/
theorem stepKeepsClaimsSound : Obligations.StepKeepsClaimsSound :=
  fun _ _ hs h => step_keeps (fun _ _ => id) (fun _ _ _ => Move.claims) hs h

end Sys2Proof.Machine
end

section
/-! SUPPORT. The accounting of the Staging Pool (R55, R56): the length of a slot's list as a count over the places of the
pool, what the events of the groups do to it, and the law of the reservations. -/

namespace Sys2Proof.Machine

section

variable (s : State)

/-! ### The length of a list -/

/-- The entries of the pool, place by place. -/
theorem pool_toList (pool : Pool) : pool.toList = (List.finRange 96).map fun i => pool[i] := by
  apply List.ext_getElem
  · simp
  · intro i _ _
    simp

theorem State.slotLen_eq (k : SlotId) : s.slotLen k = (List.finRange 96).countP fun i => ownedBy k s.pool[i] := by
  rw [State.slotLen, pool_toList, List.countP_map]
  rfl

theorem State.poolUsed_eq : s.poolUsed = (List.finRange 96).countP fun i => s.pool[i].isSome := by
  rw [State.poolUsed, pool_toList, List.countP_map]
  rfl

theorem ownedBy_iff {k : SlotId} {x : Option StagingEntry} : ownedBy k x = true ↔ ∃ e, x = some e ∧ e.slot = k := by
  cases x <;> simp [ownedBy]

theorem slotId_cases : ∀ k : SlotId, k = 0 ∨ k = 1 ∨ k = 2 ∨ k = 3 := by decide

/-- A list's length is read through the pool alone. -/
theorem State.slotLen_congr {s t : State} (h : t.pool = s.pool) (k : SlotId) : t.slotLen k = s.slotLen k := by
  rw [State.slotLen, h, State.slotLen]

/-- A list is no longer when each of its entries was in it before. -/
theorem State.slotLen_le {s t : State} {k : SlotId}
    (h : ∀ (i : Fin 96) (e : StagingEntry), t.pool[i] = some e → e.slot = k →
      ∃ f, s.pool[i] = some f ∧ f.slot = k) : t.slotLen k ≤ s.slotLen k := by
  rw [State.slotLen_eq, State.slotLen_eq]
  refine List.countP_mono_left fun i _ owned => ?_
  obtain ⟨e, he, hk⟩ := ownedBy_iff.1 owned
  exact ownedBy_iff.2 (h i e he hk)

/-- A slot without entries has an empty list. -/
theorem State.slotLen_eq_zero {s : State} {k : SlotId}
    (h : ∀ (i : Fin 96) (e : StagingEntry), s.pool[i] = some e → e.slot ≠ k) : s.slotLen k = 0 := by
  rw [State.slotLen_eq, List.countP_eq_zero]
  intro i _ owned
  obtain ⟨e, he, hk⟩ := ownedBy_iff.1 owned
  exact h i e he hk

/-- Each entry in use is in one of the four lists (R53). -/
theorem State.poolUsed_eq_sum : s.poolUsed = s.slotLen 0 + s.slotLen 1 + s.slotLen 2 + s.slotLen 3 := by
  have one : ∀ x : Option StagingEntry, (if x.isSome then 1 else 0) =
      (if ownedBy 0 x then 1 else 0) + (if ownedBy 1 x then 1 else 0) + (if ownedBy 2 x then 1 else 0) +
        if ownedBy 3 x then 1 else 0 := by
    intro x
    cases x with
    | none => rfl
    | some e =>
      obtain ⟨k, hk⟩ : ∃ k, e.slot = k := ⟨_, rfl⟩
      fin_cases k <;> simp [ownedBy, hk]
  have all : ∀ l : List (Option StagingEntry), l.countP Option.isSome =
      l.countP (ownedBy 0) + l.countP (ownedBy 1) + l.countP (ownedBy 2) + l.countP (ownedBy 3) := by
    intro l
    induction l with
    | nil => rfl
    | cons x l ih =>
      have := one x
      simp only [List.countP_cons, ih]
      omega
  exact all s.pool.toList

/-- A new entry in a free place makes its slot's list one longer, and no other. -/
theorem State.slotLen_new_entry {s t : State} {i : Fin 96} {e : StagingEntry} (free : s.pool[i] = none)
    (pool : t.pool = s.pool.set i (some e)) (k : SlotId) :
    t.slotLen k = s.slotLen k + if e.slot = k then 1 else 0 := by
  have old : ownedBy k s.pool.toList[i.val] = false := by
    have : s.pool.toList[i.val] = none := by simpa using free
    rw [this, ownedBy]
  rw [State.slotLen, pool, Vector.toList_set, List.countP_set (by simp), old, State.slotLen]
  simp [ownedBy]

/-- Merging keeps each list's length. -/
theorem State.slotLen_stageMerge (j k : SlotId) (word : Addr) (mask : Mask) (data : Word) :
    (s.stageMerge k word mask data).slotLen j = s.slotLen j := by
  rw [State.slotLen_eq, State.slotLen_eq]
  refine List.countP_congr fun i _ => ?_
  rw [State.stageMerge_entry]
  cases s.pool[i] <;> simp [ownedBy]

/-- A staged write makes its slot's list at most one longer, and no other list. -/
theorem State.stageWrite_slotLen (j k : SlotId) (word : Addr) (mask : Mask) (data : Word) (window : Option WindowId) :
    ((s.stage k word mask data).takeWrite k window).slotLen j ≤ s.slotLen j + if k = j then 1 else 0 := by
  rw [State.slotLen_congr (State.takeWrite_pool _ _ _)]
  obtain ⟨i, _, free, h⟩ | ⟨_, h⟩ | ⟨_, _, h⟩ := s.stage_cases k word mask data <;> rw [h]
  · exact (State.slotLen_new_entry (t := { s with pool := _ }) (s.freeEntry_some free) rfl j).le
  · rw [State.slotLen_stageMerge]; exact Nat.le_add_right _ _
  · exact Nat.le_add_right _ _

/-- An entry in use stands in a full pool; otherwise a place is free (R53). -/
theorem State.freeEntry_ne_none (h : s.poolUsed < 96) : s.freeEntry ≠ none := by
  intro none
  have full : ∀ i : Fin 96, s.pool[i].isSome = true := by
    intro i
    have := List.find?_eq_none.1 none i (List.mem_finRange i)
    simpa [Option.isSome_iff_ne_none] using this
  have : s.poolUsed = 96 := by
    rw [State.poolUsed_eq, List.countP_eq_length.2 fun i _ => full i, List.length_finRange]
  omega

end

/-! ### Reservations -/

/-- A slot's list is within its reservation, it reserves nothing when it keeps no claims, and while it is FILLING its
writes still to come fit as well (R55, R56). -/
def Slot.Reserved (x : Slot) (len : Nat) : Prop :=
  len ≤ x.reservation ∧ (x.state.claims = false → x.reservation = 0) ∧
    (x.state = .filling → ∃ n, x.remaining = some (n + 1) ∧ len + n + 1 ≤ x.reservation)

/-- What the four slots reserve together. -/
def State.reserved (s : State) : Nat :=
  (s.slot 0).reservation + (s.slot 1).reservation + (s.slot 2).reservation + (s.slot 3).reservation

theorem reservationsSound_iff {s : State} :
    ReservationsSound s ↔ (∀ k, (s.slot k).Reserved (s.slotLen k)) ∧ s.reserved ≤ 96 := by
  constructor
  · rintro ⟨len, none, filling, sum⟩
    exact ⟨fun k => ⟨len k, none k, filling k⟩, sum⟩
  · rintro ⟨each, sum⟩
    exact ⟨fun k => (each k).1, fun k => (each k).2.1, fun k => (each k).2.2, sum⟩

theorem Slot.Reserved.mono {x : Slot} {m n : Nat} (h : x.Reserved n) (le : m ≤ n) : x.Reserved m := by
  obtain ⟨len, none, filling⟩ := h
  refine ⟨le.trans len, none, fun f => ?_⟩
  obtain ⟨r, hr, fits⟩ := filling f
  exact ⟨r, hr, by omega⟩

/-- A FREE or ABORTED slot reserves nothing and has no list. -/
theorem Slot.Reserved.of_nothing {x : Slot} (reservation : x.reservation = 0) (state : x.state ≠ .filling) :
    x.Reserved 0 :=
  ⟨Nat.zero_le _, fun _ => reservation, fun f => absurd f state⟩

/-- A slot whose state keeps claims and is not FILLING is bound by its list's length alone. -/
theorem Slot.Reserved.of_claims {x : Slot} {len : Nat} (le : len ≤ x.reservation) (claims : x.state.claims = true)
    (state : x.state ≠ .filling) : x.Reserved len :=
  ⟨le, fun h => Bool.noConfusion (h.symm.trans claims), fun f => absurd f state⟩

/-- The reservations stay sound when each slot is within its reservation and none reserves more than before. -/
theorem ReservationsSound.of_each {s t : State} (h : ReservationsSound s)
    (each : ∀ k, (t.slot k).Reserved (t.slotLen k) ∧ (t.slot k).reservation ≤ (s.slot k).reservation) :
    ReservationsSound t := by
  obtain ⟨_, sum⟩ := reservationsSound_iff.1 h
  refine reservationsSound_iff.2 ⟨fun k => (each k).1, ?_⟩
  have h0 := (each 0).2
  have h1 := (each 1).2
  have h2 := (each 2).2
  have h3 := (each 3).2
  unfold State.reserved at sum ⊢
  omega

/-- The reservations stay sound when one slot changes, reserving no more, and no other list grows. -/
theorem ReservationsSound.of_slot {s t : State} (h : ReservationsSound s) {k : SlotId}
    (self : (t.slot k).Reserved (t.slotLen k)) (le : (t.slot k).reservation ≤ (s.slot k).reservation)
    (others : ∀ j, k ≠ j → t.slot j = s.slot j ∧ t.slotLen j ≤ s.slotLen j) : ReservationsSound t := by
  refine h.of_each fun j => ?_
  by_cases hj : k = j
  · subst hj; exact ⟨self, le⟩
  · obtain ⟨slot, len⟩ := others j hj
    rw [slot]
    exact ⟨((reservationsSound_iff.1 h).1 j).mono len, le_rfl⟩

theorem GroupsStay.reservations {s t : State} (h : GroupsStay s t) (hs : ReservationsSound s) :
    ReservationsSound t :=
  hs.of_each fun k => by
    rw [State.slot_congr h.slots, State.slotLen_congr h.pool]
    exact ⟨(reservationsSound_iff.1 hs).1 k, le_rfl⟩

/-- What is reserved and what is unreserved make up the ninety-six entries (R30, R55). -/
theorem ReservationsSound.unreserved {s : State} (h : ReservationsSound s) : s.unreserved = 96 - s.reserved := by
  obtain ⟨each, _⟩ := reservationsSound_iff.1 h
  have l0 := (each 0).1
  have l1 := (each 1).1
  have l2 := (each 2).1
  have l3 := (each 3).1
  have unused : (allSlots.map s.unusedReservation).sum =
      s.unusedReservation 0 + (s.unusedReservation 1 + (s.unusedReservation 2 + s.unusedReservation 3)) := by
    simp [allSlots]
  rw [State.unreserved, unused, State.poolUsed_eq_sum]
  unfold State.reserved State.unusedReservation
  omega

/-- The reservation of a slot that keeps no claims is 0, and so is its list's length. -/
theorem ReservationsSound.of_unclaimed {s : State} (h : ReservationsSound s) {k : SlotId}
    (unclaimed : (s.slot k).state.claims = false) : (s.slot k).reservation = 0 ∧ s.slotLen k = 0 := by
  obtain ⟨len, none, _⟩ := (reservationsSound_iff.1 h).1 k
  have := none unclaimed
  exact ⟨this, by omega⟩

/-- A slot loses its entries and its reservation, and is not FILLING. -/
theorem ReservationsSound.of_release {s t : State} (h : ReservationsSound s) {k : SlotId}
    (entry : ∀ (i : Fin 96) (e : StagingEntry), t.pool[i] = some e ↔ s.pool[i] = some e ∧ e.slot ≠ k)
    (reservation : (t.slot k).reservation = 0) (state : (t.slot k).state ≠ .filling)
    (others : ∀ j, k ≠ j → t.slot j = s.slot j) : ReservationsSound t := by
  refine h.of_slot (k := k) ?_ (by rw [reservation]; exact Nat.zero_le _) fun j hj => ⟨others j hj, ?_⟩
  · rw [State.slotLen_eq_zero fun i e he => ((entry i e).1 he).2]
    exact .of_nothing reservation state
  · exact State.slotLen_le fun i e he hk => ⟨e, ((entry i e).1 he).1, hk⟩

/-- The pool stays, and a slot with its reservation takes a state that keeps claims and is not FILLING. -/
theorem ReservationsSound.of_state {s t : State} (h : ReservationsSound s) {k : SlotId} (pool : t.pool = s.pool)
    (reservation : (t.slot k).reservation = (s.slot k).reservation) (claims : (t.slot k).state.claims = true)
    (state : (t.slot k).state ≠ .filling) (others : ∀ j, k ≠ j → t.slot j = s.slot j) : ReservationsSound t := by
  refine h.of_slot (k := k) (.of_claims ?_ claims state) reservation.le
    fun j hj => ⟨others j hj, (State.slotLen_congr pool j).le⟩
  rw [State.slotLen_congr pool, reservation]
  exact ((reservationsSound_iff.1 h).1 k).1

/-- A group that fits in the unreserved entries is opened within them (R30). -/
theorem State.takeSlot_reservationsSound {s : State} {src : Source} {k : SlotId} {n : Nat} (hs : ReservationsSound s)
    (free : (s.slot k).state = .free) (pos : 1 ≤ n) (fits : n ≤ s.unreserved) :
    ReservationsSound (s.takeSlot src k n) := by
  obtain ⟨nothing, noList⟩ := hs.of_unclaimed (k := k) (by rw [free]; rfl)
  have len : ∀ j, (s.takeSlot src k n).slotLen j = s.slotLen j := State.slotLen_congr rfl
  obtain ⟨each, sum⟩ := reservationsSound_iff.1 hs
  refine reservationsSound_iff.2 ⟨fun j => ?_, ?_⟩
  · rw [len, State.takeSlot_slot]
    by_cases hj : k = j
    · subst hj
      rw [if_pos rfl, noList]
      refine ⟨Nat.zero_le _, fun h => absurd h (by simp [SlotState.claims]), fun _ => ⟨n - 1, congrArg some ?_, ?_⟩⟩
      · omega
      · dsimp only; omega
    · rw [if_neg hj]; exact each j
  · rw [hs.unreserved] at fits
    have reservation : ∀ j, ((s.takeSlot src k n).slot j).reservation =
        (s.slot j).reservation + if k = j then n else 0 := by
      intro j
      rw [State.takeSlot_slot]
      by_cases hj : k = j
      · subst hj; simp [nothing]
      · simp [hj]
    have place : (if k = 0 then n else 0) + (if k = 1 then n else 0) + (if k = 2 then n else 0) +
        (if k = 3 then n else 0) = n := by
      fin_cases k <;> simp
    unfold State.reserved at fits sum ⊢
    rw [reservation, reservation, reservation, reservation]
    omega

/-- A staged write takes one of the writes still to come (R37, R56). -/
theorem State.stageWrite_reservationsSound {s : State} {k : SlotId} {word : Addr} {mask : Mask} {data : Word}
    {window : Option WindowId} (hs : ReservationsSound s) (filling : (s.slot k).state = .filling) :
    ReservationsSound ((s.stage k word mask data).takeWrite k window) := by
  obtain ⟨n, remaining, fits⟩ := ((reservationsSound_iff.1 hs).1 k).2.2 filling
  have grown := s.stageWrite_slotLen k k word mask data window
  rw [if_pos rfl] at grown
  refine hs.of_slot (k := k) ?_ ?_ fun j hj => ⟨?_, ?_⟩
  · rw [State.stageWrite_slot, if_pos rfl]
    refine ⟨?_, fun h => ?_, fun f => ⟨n - 1, ?_, ?_⟩⟩
    · show _ ≤ (s.slot k).reservation
      omega
    · exact Bool.noConfusion (h.symm.trans (claims_of_takeWrite _))
    all_goals
      simp only [Slot.afterWrite, remaining, Option.getD_some] at f ⊢
      have : n ≠ 0 := fun zero => by simp [zero] at f
    · congr 1; omega
    · omega
  · rw [State.stageWrite_slot, if_pos rfl]; exact le_rfl
  · rw [State.stageWrite_slot, if_neg hj]
  · have := s.stageWrite_slotLen j k word mask data window
    rwa [if_neg hj] at this

/-- A reset part reserves nothing. -/
theorem State.powerOnValues_reservationsSound (s : State) (power : Power) :
    ReservationsSound (s.powerOnValues power) := by
  have slot : ∀ k, (s.powerOnValues power).slot k = Slot.empty := fun k => by
    simp [State.powerOnValues, State.reset, State.slot]
  have entry : ∀ (i : Fin 96) (e : StagingEntry), (s.powerOnValues power).pool[i] ≠ some e := fun i e => by
    simp [State.powerOnValues, State.reset]
  refine reservationsSound_iff.2 ⟨fun k => ?_, ?_⟩
  · rw [slot, State.slotLen_eq_zero fun i e he => absurd he (entry i e)]
    exact .of_nothing rfl (by decide)
  · simp only [State.reserved, slot]
    decide

theorem GroupMove.reservations {c : Instr} {s t : State} (g : GroupMove c s t) (hs : ReservationsSound s) :
    ReservationsSound t := by
  cases g with
  | opens src k n unlinked free pos fits => exact State.takeSlot_reservationsSound hs free pos fits
  | stages k word mask data window filling own => exact State.stageWrite_reservationsSound hs filling
  | aborts k cause open_ =>
    exact hs.of_release (s.abortSlot_entry_iff k cause) (by rw [State.abortSlot_slot, if_pos rfl]; rfl)
      (by rw [State.abortSlot_slot, if_pos rfl]; simp) fun j hj => by rw [State.abortSlot_slot, if_neg hj]
  | commits src k linked ready running up =>
    have len : ∀ j, (s.acceptCommit src k).slotLen j = s.slotLen j := State.slotLen_congr rfl
    have self : (s.acceptCommit src k).slot k =
        { s.slot k with state := .queued, remaining := none, reservation := s.slotLen k } := by
      rw [State.acceptCommit_slot, if_pos rfl]
    refine hs.of_slot (k := k) ?_ ?_ fun j hj => ⟨by rw [State.acceptCommit_slot, if_neg hj], (len j).le⟩
    · rw [self, len]
      exact .of_claims le_rfl rfl (by simp)
    · rw [self]
      exact ((reservationsSound_iff.1 hs).1 k).1
  | discards src k linked open_ =>
    have slot : ∀ j, ((s.freeSlot k).setLink src none).slot j = if j = k then Slot.empty else s.slot j := fun j => by
      rw [State.slot_congr (State.setLink_slots _ _ _), State.freeSlot_slot]
    refine hs.of_release (k := k) (fun i e => ?_) (by rw [slot, if_pos rfl]; rfl) (by rw [slot, if_pos rfl]; decide)
      fun j hj => by rw [slot, if_neg (Ne.symm hj)]
    rw [State.setLink_pool]
    exact s.freeSlot_entry_iff k i e
  | resetsLink =>
    refine hs.of_each fun k => ?_
    rw [State.linkReset_slot]
    by_cases freed : (s.slot k).state.freedByReset = true
    · rw [if_pos freed, State.slotLen_eq_zero fun i e he hk => ?_]
      · exact ⟨.of_nothing rfl (by decide), Nat.zero_le _⟩
      · have := ((s.linkReset_entry_iff i e).1 he).2
        rw [hk, freed] at this
        cases this
    · rw [if_neg freed]
      have len : s.linkReset.slotLen k ≤ s.slotLen k :=
        State.slotLen_le fun i e he hk => ⟨e, ((s.linkReset_entry_iff i e).1 he).1, hk⟩
      exact ⟨((reservationsSound_iff.1 hs).1 k).mono len, le_rfl⟩
  | beginsSeal r k rest region head due =>
    have self := s.beginSeal_slot r k k rest
    rw [if_pos rfl] at self
    exact hs.of_state (k := k) rfl (by rw [self]) (by rw [self]; rfl) (by rw [self]; simp)
      fun j hj => by rw [State.beginSeal_slot, if_neg hj]
  | sealsWord landed more => exact hs
  | commitPoint k landed sealing =>
    have self := s.sealSlot_slot k k
    rw [if_pos rfl] at self
    exact hs.of_state (k := k) rfl (by rw [self]) (by rw [self]; rfl) (by rw [self]; simp)
      fun j hj => by rw [State.sealSlot_slot, if_neg hj]
  | takesApplyHead =>
    obtain h | ⟨k, rest, _, h⟩ := s.takeApplyHead_cases <;> rw [h]
    · exact hs
    · have self := s.applySlot_slot k k rest
      rw [if_pos rfl] at self
      exact hs.of_state (k := k) rfl (by rw [self]) (by rw [self]; rfl) (by rw [self]; simp)
        fun j hj => by rw [State.applySlot_slot, if_neg hj]
  | writesHome k applying landed =>
    obtain h | h := s.homeWritten_cases k <;> rw [h]
    · have len : ∀ x j, (s.setSlot k x).slotLen j = s.slotLen j := fun _ => State.slotLen_congr rfl
      refine hs.of_slot (k := k) ?_ (by rw [State.setSlot_slot_self]) fun j hj =>
        ⟨s.setSlot_slot_ne hj _, (len _ j).le⟩
      rw [State.setSlot_slot_self, len]
      exact (reservationsSound_iff.1 hs).1 k
    · exact hs
  | retires k applying landed =>
    exact hs.of_release (s.retireSlot_entry_iff k) (by rw [State.retireSlot_slot, if_pos rfl]; rfl)
      (by rw [State.retireSlot_slot, if_pos rfl]; decide)
      fun j hj => by rw [State.retireSlot_slot, if_neg (Ne.symm hj)]
  | cutsPower power by_ down => exact State.powerOnValues_reservationsSound _ power

theorem Move.reservations {c : Instr} {s t : State} (m : Move c s t) (hs : ReservationsSound s) :
    ReservationsSound t :=
  m.groups_or.elim (·.reservations hs) (·.reservations hs)

/-- A FILLING slot's list is shorter than its reservation, so the pool is not full. -/
theorem ReservationsSound.poolUsed_lt {s : State} (hs : ReservationsSound s) {k : SlotId}
    (filling : (s.slot k).state = .filling) : s.poolUsed < 96 := by
  obtain ⟨each, sum⟩ := reservationsSound_iff.1 hs
  obtain ⟨n, _, fits⟩ := (each k).2.2 filling
  have l0 := (each 0).1
  have l1 := (each 1).1
  have l2 := (each 2).1
  have l3 := (each 3).1
  rw [State.poolUsed_eq_sum]
  unfold State.reserved at sum
  obtain rfl | rfl | rfl | rfl := slotId_cases k <;> omega

/-- Settles O56: an OPEN reserves only what is unreserved, and a staged write uses up one reserved entry at most. -/
theorem stepKeepsReservationsSound : Obligations.StepKeepsReservationsSound :=
  ⟨fun _ _ hs _ h => step_keeps (fun _ _ => id) (fun _ _ _ => Move.reservations) hs h,
    fun s _ hs filling => s.freeEntry_ne_none (hs.poolUsed_lt filling)⟩

end Sys2Proof.Machine
end

section
/-! SUPPORT. The law of the groups: links and owners, the Commit Queue and the Apply Queue, SEALING and APPLYING
(R26, R126, R132), kept by each event. -/

namespace Sys2Proof.Machine

section

variable (s : State)

/-! ### Links after the events -/

theorem State.setLink_link (src i : Source) (k : Option SlotId) :
    ((s.setLink src k).source i).link = if src = i then k else (s.source i).link := by
  rw [State.setLink, State.setSource_source]
  split <;> rfl

theorem State.takeSlot_link (src i : Source) (k : SlotId) (n : Nat) :
    ((s.takeSlot src k n).source i).link = if src = i then some k else (s.source i).link :=
  State.setLink_link _ src i (some k)

theorem State.acceptCommit_link (src i : Source) (k : SlotId) :
    ((s.acceptCommit src k).source i).link = if src = i then none else (s.source i).link := by
  have entry : (s.acceptCommit src k).sources =
      ((s.setLink src none).setCompletion src (some { notice := .commit k, status := .waiting })).sources := rfl
  rw [State.source_congr entry, (Stays.setCompletion _ _ _).link, State.setLink_link]

theorem State.linkReset_link (i : Source) : (s.linkReset.source i).link = none := by
  rw [State.linkReset_source]
  rfl

end

/-- The role of a slot among the groups: its state, FILLING and READY as one with ABORTED. -/
def SlotState.role : SlotState → SlotState
  | .filling | .ready | .aborted => .filling
  | x => x

theorem SlotState.linked_iff_role {x : SlotState} : x.linked = true ↔ x.role = .filling := by
  cases x <;> decide

theorem SlotState.role_eq_iff {x y : SlotState} (hy : y = .queued ∨ y = .sealing ∨ y = .sealed ∨ y = .applying) :
    x = y ↔ x.role = y := by
  obtain rfl | rfl | rfl | rfl := hy <;> cases x <;> decide

/-- The groups stay sound when each slot keeps its role and its owner, and links and queues stay. -/
theorem GroupsSound.of_roles {s t : State} (h : GroupsSound s)
    (role : ∀ j, (t.slot j).state.role = (s.slot j).state.role) (owner : ∀ j, (t.slot j).owner = (s.slot j).owner)
    (link : ∀ i, (t.source i).link = (s.source i).link) (commitQueue : t.journal.commitQueue = s.journal.commitQueue)
    (queue : t.apply.queue = s.apply.queue)
    (applying : ∀ k, (∃ p, t.apply.applying = some (k, p)) ↔ ∃ p, s.apply.applying = some (k, p)) :
    GroupsSound t := by
  have same : ∀ (j : SlotId) {y : SlotState}, y = .queued ∨ y = .sealing ∨ y = .sealed ∨ y = .applying →
      ((t.slot j).state = y ↔ (s.slot j).state = y) := fun j y hy => by
    rw [SlotState.role_eq_iff (x := (t.slot j).state) hy, SlotState.role_eq_iff (x := (s.slot j).state) hy, role]
  have linkedSame : ∀ j, (t.slot j).state.linked = (s.slot j).state.linked := fun j => by
    rw [Bool.eq_iff_iff, SlotState.linked_iff_role, SlotState.linked_iff_role, role]
  obtain ⟨linked, owned, ⟨cqNodup, cq⟩, ⟨aqNodup, aq⟩, applies, sealing⟩ := h
  refine ⟨fun src k hk => ?_, fun k hk => ?_, ⟨?_, fun k => ?_⟩, ⟨?_, fun k => ?_⟩, fun k => ?_, fun j k hj hk => ?_⟩
  · rw [linkedSame, owner]; exact linked src k (link src ▸ hk)
  · rw [linkedSame] at hk
    obtain ⟨src, ho, hl⟩ := owned k hk
    exact ⟨src, by rw [owner, ho], by rw [link, hl]⟩
  · rw [commitQueue]; exact cqNodup
  · rw [commitQueue, cq, same k (by simp)]
  · rw [queue]; exact aqNodup
  · rw [queue, aq, same k (by simp)]
  · rw [same k (by simp), applies, applying]
  · exact sealing j k ((same j (by simp)).1 hj) ((same k (by simp)).1 hk)

theorem GroupsStay.sound {s t : State} (h : GroupsStay s t) (hs : GroupsSound s) : GroupsSound t :=
  hs.of_roles (fun j => by rw [State.slot_congr h.slots]) (fun j => by rw [State.slot_congr h.slots]) h.link
    h.commitQueue (by rw [h.apply]) fun k => by rw [h.apply]

/-- The source linked to a slot is its owner, and no other is linked to it. -/
theorem GroupsSound.link_unique {s : State} (h : GroupsSound s) {i j : Source} {k : SlotId}
    (hi : (s.source i).link = some k) (hj : (s.source j).link = some k) : i = j := by
  have oi := (h.1 i k hi).2
  have oj := (h.1 j k hj).2
  rw [oi] at oj
  exact Option.some.inj oj

/-- The owner of an open slot leaves it, and the slot takes a state without an owner's link, by the Commit Queue or not:
a COMMIT (`queued`) or a DISCARD. -/
theorem GroupsSound.of_unlink {s t : State} (h : GroupsSound s) {src : Source} {k : SlotId} {x : Slot} (queued : Bool)
    (wasLinked : (s.source src).link = some k) (slot : ∀ j, t.slot j = if k = j then x else s.slot j)
    (state : x.state = if queued then .queued else .free)
    (link : ∀ i, (t.source i).link = if src = i then none else (s.source i).link)
    (commitQueue : t.journal.commitQueue = s.journal.commitQueue ++ if queued then [k] else [])
    (apply : t.apply = s.apply) : GroupsSound t := by
  have open_ := (h.1 src k wasLinked).1
  have unique : ∀ i, (s.source i).link = some k → src = i := fun i hi => h.link_unique wasLinked hi
  obtain ⟨linked, owned, ⟨cqNodup, cq⟩, ⟨aqNodup, aq⟩, applies, sealing⟩ := h
  have fresh : k ∉ s.journal.commitQueue := by rw [cq]; intro e; rw [e] at open_; cases open_
  cases queued <;> simp only [if_true, if_false, Bool.false_eq_true, List.append_nil] at state commitQueue
  all_goals
    refine ⟨fun i j hij => ?_, fun j hj => ?_, ⟨?_, fun j => ?_⟩, ⟨?_, fun j => ?_⟩, fun j => ?_, fun i j hi hj => ?_⟩
  all_goals grind [SlotState.linked]

/-- A FREE slot is taken by a source without a link (R30). -/
theorem GroupsSound.of_open {s t : State} (h : GroupsSound s) {src : Source} {k : SlotId} {x : Slot}
    (unlinked : (s.source src).link = none) (free : (s.slot k).state = .free)
    (slot : ∀ j, t.slot j = if k = j then x else s.slot j) (state : x.state = .filling) (owner : x.owner = some src)
    (link : ∀ i, (t.source i).link = if src = i then some k else (s.source i).link)
    (commitQueue : t.journal.commitQueue = s.journal.commitQueue) (apply : t.apply = s.apply) : GroupsSound t := by
  obtain ⟨linked, owned, ⟨cqNodup, cq⟩, ⟨aqNodup, aq⟩, applies, sealing⟩ := h
  refine ⟨fun i j hij => ?_, fun j hj => ?_, ⟨?_, fun j => ?_⟩, ⟨?_, fun j => ?_⟩, fun j => ?_, fun i j hi hj => ?_⟩
  all_goals grind [SlotState.linked]

/-- A slot that no source is linked to goes from one of the states behind QUEUED to the next, the queues with it. -/
theorem GroupsSound.of_advance {s t : State} (h : GroupsSound s) {k : SlotId} {x : Slot}
    (unlinked : (s.slot k).state.linked = false) (slot : ∀ j, t.slot j = if k = j then x else s.slot j)
    (unlinked' : x.state.linked = false) (link : ∀ i, (t.source i).link = (s.source i).link)
    (commitQueue : t.journal.commitQueue.Nodup ∧ ∀ j, j ∈ t.journal.commitQueue ↔ (t.slot j).state = .queued)
    (queue : t.apply.queue.Nodup ∧ ∀ j, j ∈ t.apply.queue ↔ (t.slot j).state = .sealed)
    (applying : ∀ j, (t.slot j).state = .applying ↔ ∃ p, t.apply.applying = some (j, p))
    (sealing : ∀ i j, (t.slot i).state = .sealing → (t.slot j).state = .sealing → i = j) : GroupsSound t := by
  obtain ⟨linked, owned, _⟩ := h
  refine ⟨fun i j hij => ?_, fun j hj => ?_, commitQueue, queue, applying, sealing⟩
  all_goals grind

/-- The seal of the Commit Queue's head begins, while no slot is SEALING (R123). -/
theorem State.beginSeal_groupsSound {s : State} {r : Region} {k : SlotId} {rest : List SlotId} (hs : GroupsSound s)
    (head : s.journal.commitQueue = k :: rest) (due : s.sealConditions k = true) :
    GroupsSound (s.beginSeal r k rest) := by
  have idle : ∀ j, (s.slot j).state ≠ .sealing := by
    simp only [State.sealConditions, State.sealReadyButSpace, Bool.and_eq_true, Option.isNone_iff_eq_none] at due
    exact s.sealingSlot_none due.1.1.1.1.1.2
  have slot := fun j => s.beginSeal_slot r j k rest
  have commitQueue : (s.beginSeal r k rest).journal.commitQueue = rest := rfl
  have apply : (s.beginSeal r k rest).apply = s.apply := rfl
  have parts := hs
  obtain ⟨linked, owned, ⟨cqNodup, cq⟩, ⟨aqNodup, aq⟩, applies, sealing⟩ := parts
  have queued : (s.slot k).state = .queued := (cq k).1 (by rw [head]; exact List.mem_cons_self)
  refine hs.of_advance (k := k) (by rw [queued]; rfl) slot rfl (fun _ => rfl) ?_ ?_ ?_ ?_
  · rw [commitQueue]
    rw [head] at cqNodup cq
    exact ⟨(List.nodup_cons.1 cqNodup).2, by grind⟩
  · rw [apply]
    exact ⟨aqNodup, by grind⟩
  · rw [apply]
    grind
  · grind

/-- A SEALING slot passes its commit point, to the tail of the Apply Queue (R126, R131). -/
theorem State.sealSlot_groupsSound {s : State} {k : SlotId} (hs : GroupsSound s)
    (sealing : (s.slot k).state = .sealing) : GroupsSound (s.sealSlot k) := by
  have slot := fun j => s.sealSlot_slot j k
  have commitQueue : (s.sealSlot k).journal.commitQueue = s.journal.commitQueue := rfl
  have queue : (s.sealSlot k).apply.queue = s.apply.queue ++ [k] := rfl
  have applying : (s.sealSlot k).apply.applying = s.apply.applying := rfl
  have parts := hs
  obtain ⟨linked, owned, ⟨cqNodup, cq⟩, ⟨aqNodup, aq⟩, applies, oneSealing⟩ := parts
  refine hs.of_advance (k := k) (by rw [sealing]; rfl) slot rfl (fun _ => rfl) ?_ ?_ ?_ ?_
  · rw [commitQueue]
    exact ⟨cqNodup, by grind⟩
  · rw [queue]
    have fresh : k ∉ s.apply.queue := by rw [aq, sealing]; decide
    exact ⟨List.nodup_append.2 ⟨aqNodup, List.nodup_singleton k, by grind⟩, by grind⟩
  · rw [applying]
    grind
  · grind

/-- The head of the Apply Queue is APPLYING, when no other slot is (R132). -/
theorem State.applySlot_groupsSound {s : State} {k : SlotId} {rest : List SlotId} (hs : GroupsSound s)
    (idle : s.apply = { queue := k :: rest, applying := none }) : GroupsSound (s.applySlot k rest) := by
  have slot := fun j => s.applySlot_slot j k rest
  have commitQueue : (s.applySlot k rest).journal.commitQueue = s.journal.commitQueue := rfl
  have apply : (s.applySlot k rest).apply = { queue := rest, applying := some (k, .home) } := rfl
  have parts := hs
  obtain ⟨linked, owned, ⟨cqNodup, cq⟩, ⟨aqNodup, aq⟩, applies, oneSealing⟩ := parts
  rw [idle] at aqNodup aq applies
  have sealed : (s.slot k).state = .sealed := (aq k).1 List.mem_cons_self
  refine hs.of_advance (k := k) (by rw [sealed]; rfl) slot rfl (fun _ => rfl) ?_ ?_ ?_ ?_
  · rw [commitQueue]
    exact ⟨cqNodup, by grind⟩
  · rw [apply]
    exact ⟨(List.nodup_cons.1 aqNodup).2, by grind⟩
  · rw [apply]
    grind
  · grind

/-- The applying slot is freed (R135). -/
theorem State.retireSlot_groupsSound {s : State} {k : SlotId} (hs : GroupsSound s)
    (applying : s.apply.applying = some (k, .retire)) : GroupsSound (s.retireSlot k) := by
  have slot : ∀ j, (s.retireSlot k).slot j = if k = j then Slot.empty else s.slot j := fun j => by
    rw [State.retireSlot_slot]
    exact if_congr eq_comm rfl rfl
  have commitQueue : (s.retireSlot k).journal.commitQueue = s.journal.commitQueue := rfl
  have apply : (s.retireSlot k).apply = { s.apply with applying := none } := rfl
  have free : Slot.empty.state = .free := rfl
  have parts := hs
  obtain ⟨linked, owned, ⟨cqNodup, cq⟩, ⟨aqNodup, aq⟩, applies, oneSealing⟩ := parts
  have state : (s.slot k).state = .applying := (applies k).2 ⟨_, applying⟩
  have link : ∀ i, ((s.retireSlot k).source i).link = (s.source i).link := fun i => by
    rw [State.source_congr (s := s) (by simp [State.retireSlot])]
  refine hs.of_advance (k := k) (by rw [state]; rfl) slot rfl link ?_ ?_ ?_ ?_
  · rw [commitQueue]
    exact ⟨cqNodup, by grind⟩
  · rw [apply]
    exact ⟨aqNodup, by grind⟩
  · rw [apply]
    grind
  · grind

/-- A link reset frees every linked slot and every QUEUED one, clears every link, and empties the Commit Queue
(R50, R87, R104). -/
theorem State.linkReset_groupsSound {s : State} (hs : GroupsSound s) : GroupsSound s.linkReset := by
  have free : Slot.empty.state = .free := rfl
  have slot : ∀ j, s.linkReset.slot j = if (s.slot j).state.freedByReset = true then Slot.empty else s.slot j :=
    s.linkReset_slot
  have kept := fun j => SlotState.freedByReset_eq_false_iff (x := (s.slot j).state)
  have apply := s.linkReset_apply
  obtain ⟨linked, owned, ⟨cqNodup, cq⟩, ⟨aqNodup, aq⟩, applies, oneSealing⟩ := hs
  refine ⟨fun i j hij => ?_, fun j hj => ?_, ⟨?_, fun j => ?_⟩, ⟨?_, fun j => ?_⟩, fun j => ?_, fun i j hi hj => ?_⟩
  · rw [State.linkReset_link] at hij; cases hij
  · exfalso; grind [SlotState.linked]
  · rw [State.linkReset_journal]; exact List.nodup_nil
  · rw [State.linkReset_journal]; grind
  · rw [apply]; exact aqNodup
  · rw [apply]; grind
  · rw [apply]; grind
  · grind

/-- A part at its reset values has no group. -/
theorem State.powerOnValues_groupsSound (s : State) (power : Power) : GroupsSound (s.powerOnValues power) := by
  have slot : ∀ k, (s.powerOnValues power).slot k = Slot.empty := fun k => by
    simp [State.powerOnValues, State.reset, State.slot]
  have source : ∀ i, (s.powerOnValues power).source i = SourceEntry.empty := fun i => by
    simp [State.powerOnValues, State.reset, State.source]
  refine ⟨fun i k h => ?_, fun k h => ?_, ⟨List.nodup_nil, fun k => ?_⟩, ⟨List.nodup_nil, fun k => ?_⟩, fun k => ?_,
    fun j k h => ?_⟩
  · rw [source] at h; cases h
  · rw [slot] at h; cases h
  · exact ⟨fun h => absurd h List.not_mem_nil, fun h => by rw [slot] at h; cases h⟩
  · exact ⟨fun h => absurd h List.not_mem_nil, fun h => by rw [slot] at h; cases h⟩
  · exact ⟨fun h => (by rw [slot] at h; cases h), fun ⟨_, h⟩ => by cases h⟩
  · rw [slot] at h; cases h

theorem GroupMove.sound {c : Instr} {s t : State} (g : GroupMove c s t) (hs : GroupsSound s) : GroupsSound t := by
  cases g with
  | opens src k n unlinked free pos fits =>
    exact hs.of_open unlinked free (fun j => s.takeSlot_slot src j k n) rfl rfl (fun i => s.takeSlot_link src i k n)
      rfl rfl
  | stages k word mask data window filling own =>
    have role : ((s.slot k).afterWrite window).state.role = (s.slot k).state.role := by
      rw [filling, Slot.afterWrite]
      dsimp only
      split <;> rfl
    refine hs.of_roles (fun j => ?_) (fun j => ?_) (fun i => ?_) (by simp) (by simp) fun j => by simp
    · rw [State.stageWrite_slot]
      split
      · next h => rw [← h]; exact role
      · rfl
    · rw [State.stageWrite_slot]
      split
      · next h => rw [← h]; rfl
      · rfl
    · rw [State.source_congr (s := s) (by simp)]
  | aborts k cause open_ =>
    refine hs.of_roles (fun j => ?_) (fun j => ?_) (fun i => ?_) rfl rfl fun j => Iff.rfl
    · rw [State.abortSlot_slot]
      split
      · next h => rw [← h]; obtain h | h := open_ <;> rw [h] <;> rfl
      · rfl
    · rw [State.abortSlot_slot]
      split
      · next h => rw [← h]
      · rfl
    · rw [State.source_congr (s := s) (by simp [State.abortSlot])]
  | commits src k linked ready running up =>
    exact hs.of_unlink true linked (fun j => s.acceptCommit_slot src j k) rfl (fun i => s.acceptCommit_link src i k)
      rfl rfl
  | discards src k linked open_ =>
    refine hs.of_unlink false linked (x := Slot.empty) (fun j => ?_) rfl (fun i => ?_) (by simp) (by simp)
    · rw [State.slot_congr (State.setLink_slots _ _ _), State.freeSlot_slot]
      exact if_congr eq_comm rfl rfl
    · rw [State.setLink_link, State.source_congr (s.freeSlot_sources k)]
  | resetsLink => exact State.linkReset_groupsSound hs
  | beginsSeal r k rest region head due => exact State.beginSeal_groupsSound hs head due
  | sealsWord landed more => exact hs
  | commitPoint k landed sealing => exact State.sealSlot_groupsSound hs (s.sealingSlot_some sealing)
  | takesApplyHead =>
    obtain h | ⟨k, rest, idle, h⟩ := s.takeApplyHead_cases <;> rw [h]
    · exact hs
    · exact State.applySlot_groupsSound hs idle
  | writesHome k applying landed =>
    obtain h | h := s.homeWritten_cases k <;> rw [h]
    · refine hs.of_roles (fun j => ?_) (fun j => ?_) (fun _ => rfl) rfl rfl fun _ => Iff.rfl <;>
        · rw [State.setSlot_slot]
          split
          · next h => rw [← h]
          · rfl
    · refine hs.of_roles (fun _ => rfl) (fun _ => rfl) (fun _ => rfl) rfl rfl fun j => ?_
      rw [applying]
      constructor <;> rintro ⟨p, hp⟩ <;> cases hp <;> exact ⟨_, rfl⟩
  | retires k applying landed => exact State.retireSlot_groupsSound hs applying
  | cutsPower power by_ down => exact State.powerOnValues_groupsSound _ power

theorem Move.sound {c : Instr} {s t : State} (m : Move c s t) (hs : GroupsSound s) : GroupsSound t :=
  m.groups_or.elim (·.sound hs) (·.sound hs)

/-- Settles O57: every event of the groups moves links, owners and queues with the slot's state. -/
theorem stepKeepsGroupsSound : Obligations.StepKeepsGroupsSound :=
  fun _ _ hs h => step_keeps (fun _ _ => id) (fun _ _ _ => Move.sound) hs h

end Sys2Proof.Machine
end

section
/-! SUPPORT. The law of the operation in flight (R148): what each requester asked for, kept by each move; the write of the
Apply Engine through the entries of the applying slot, the grant by its cases, then the moves. -/

namespace Sys2Proof.Machine

/-- The parts of the law of the operation in flight, by name. -/
structure Flight (s : State) : Prop where
  read : ∀ op, s.mp.inFlight = some { requester := .rotor .read, op } →
    ∃ w, op = .read w ∧ ∀ h, s.held = some h → h.granted = true → h.word = w
  drain : DrainSound s
  sealer : ∀ op, s.mp.inFlight = some { requester := .rotor .sealer, op } →
    ∃ a w rest, s.journal.sealWrites = (a, w) :: rest ∧ op = .write a 15 w
  sealing : s.journal.sealWrites ≠ [] ↔ ∃ k, (s.slot k).state = .sealing
  apply : ∀ op, s.mp.inFlight = some { requester := .rotor .apply, op } → s.applyWrite = some op
  scanner : ∀ op, s.mp.inFlight = some { requester := .scanner, op } → s.op = .recovering ∧ s.scannerOp = some op
  power : s.power ≠ .up → s.mp.inFlight = none ∧ WorkOver s
  finished : s.op ≠ .running → (s.op = .reloading → s.guardsCleared = true) → WorkOver s

theorem flightSound_iff {s : State} : FlightSound s ↔ Flight s :=
  ⟨fun ⟨read, drain, ⟨sealer, sealing⟩, apply, scanner, power, finished⟩ =>
      ⟨read, drain, sealer, sealing, apply, scanner, power, finished⟩,
    fun ⟨read, drain, sealer, sealing, apply, scanner, power, finished⟩ =>
      ⟨read, drain, ⟨sealer, sealing⟩, apply, scanner, power, finished⟩⟩

/-- With nothing in flight, the seal and the work that is over are what the law speaks of. -/
theorem Flight.of_landed {s : State} (landed : s.mp.inFlight = none)
    (sealing : s.journal.sealWrites ≠ [] ↔ ∃ k, (s.slot k).state = .sealing) (power : s.power ≠ .up → WorkOver s)
    (finished : s.op ≠ .running → (s.op = .reloading → s.guardsCleared = true) → WorkOver s) : Flight s :=
  ⟨(fun _ h => by rw [landed] at h; cases h), (fun _ h => by rw [landed] at h; cases h),
    (fun _ h => by rw [landed] at h; cases h), sealing, (fun _ h => by rw [landed] at h; cases h),
    (fun _ h => by rw [landed] at h; cases h), fun h => ⟨landed, power h⟩, finished⟩

/-! ### The write of the Apply Engine -/

/-- The entry of slot `k` at a list position, if this is it. -/
def entryIs (k : SlotId) (position : Nat) : Option StagingEntry → Option StagingEntry
  | none => none
  | some e => if e.slot = k ∧ e.position = position then some e else none

theorem entryIs_eq_some {k : SlotId} {position : Nat} {x : Option StagingEntry} {e : StagingEntry} :
    entryIs k position x = some e ↔ x = some e ∧ e.slot = k ∧ e.position = position := by
  cases x with
  | none => simp [entryIs]
  | some f =>
    simp only [entryIs, Option.some.injEq]
    split
    · next h => constructor
                · intro e; cases e; exact ⟨rfl, h⟩
                · exact fun e => congrArg some e.1
    · next h => constructor
                · intro e; cases e
                · rintro ⟨rfl, e⟩; exact absurd e h

theorem State.entryAt_eq (s : State) (k : SlotId) (position : Nat) :
    s.entryAt k position = (List.finRange 96).findSome? fun i => entryIs k position s.pool[i] := by
  rw [State.entryAt, pool_toList, List.findSome?_map]
  rfl

/-- The entries of slot `k` are the same, place by place. -/
def SameEntries (k : SlotId) (s t : State) : Prop :=
  ∀ (i : Fin 96) (e : StagingEntry), e.slot = k → (t.pool[i] = some e ↔ s.pool[i] = some e)

theorem SameEntries.of_eq {k : SlotId} {s t : State} (h : t.pool = s.pool) : SameEntries k s t :=
  fun _ _ _ => by rw [h]

theorem SameEntries.entryAt {k : SlotId} {s t : State} (h : SameEntries k s t) (position : Nat) :
    t.entryAt k position = s.entryAt k position := by
  have same : ∀ i : Fin 96, entryIs k position t.pool[i] = entryIs k position s.pool[i] := fun i =>
    Option.ext fun e => by
      rw [entryIs_eq_some, entryIs_eq_some]
      exact ⟨fun x => ⟨(h i e x.2.1).1 x.1, x.2⟩, fun x => ⟨(h i e x.2.1).2 x.1, x.2⟩⟩
  rw [State.entryAt_eq, State.entryAt_eq]
  simp only [same]

theorem SameEntries.slotLen {k : SlotId} {s t : State} (h : SameEntries k s t) : t.slotLen k = s.slotLen k :=
  Nat.le_antisymm (State.slotLen_le fun i e he hk => ⟨e, (h i e hk).1 he, hk⟩)
    (State.slotLen_le fun i e he hk => ⟨e, (h i e hk).2 he, hk⟩)

/-- The write of the Apply Engine is read through the applying slot, its entries, and the region. -/
theorem State.applyWrite_congr {s t : State} (apply : t.apply.applying = s.apply.applying) (region : t.region = s.region)
    (slot : ∀ k p, s.apply.applying = some (k, p) → t.slot k = s.slot k ∧ SameEntries k s t) :
    t.applyWrite = s.applyWrite := by
  unfold State.applyWrite
  rw [apply]
  cases h : s.apply.applying with
  | none => rfl
  | some kp =>
    obtain ⟨k, p⟩ := kp
    obtain ⟨hk, entries⟩ := slot k p h
    cases p with
    | home => simp only [hk, entries.entryAt]
    | retire => simp only [hk, entries.slotLen, State.ring, region]

/-- One slot changes that is not APPLYING, with its entries: the write of the Apply Engine stays. -/
theorem GroupsSound.applyWrite_of_slot {s t : State} (hg : GroupsSound s) {k : SlotId}
    (idle : (s.slot k).state ≠ .applying) (slot : ∀ j, k ≠ j → t.slot j = s.slot j)
    (entries : ∀ j, k ≠ j → SameEntries j s t) (apply : t.apply = s.apply) (region : t.region = s.region) :
    t.applyWrite = s.applyWrite := by
  refine State.applyWrite_congr (by rw [apply]) region fun j p applying => ?_
  have hj : k ≠ j := by
    rintro rfl
    exact idle ((hg.2.2.2.2.1 k).2 ⟨p, applying⟩)
  exact ⟨slot j hj, entries j hj⟩

/-- A release of one slot's entries leaves those of the others. -/
theorem SameEntries.of_release {s t : State} {j k : SlotId} (hj : k ≠ j)
    (entry : ∀ (i : Fin 96) (e : StagingEntry), t.pool[i] = some e ↔ s.pool[i] = some e ∧ e.slot ≠ k) :
    SameEntries j s t :=
  fun i e he => by rw [entry, and_iff_left]; rw [he]; exact hj.symm

/-- A staged write leaves the entries of the other slots. -/
theorem SameEntries.of_stage {s : State} {j k : SlotId} (hj : k ≠ j) (word : Addr) (mask : Mask) (data : Word)
    (window : Option WindowId) : SameEntries j s ((s.stage k word mask data).takeWrite k window) := by
  intro i e he
  rw [State.takeWrite_pool]
  obtain ⟨i', _, free, h⟩ | ⟨_, h⟩ | ⟨_, _, h⟩ := s.stage_cases k word mask data <;> rw [h]
  · show (s.pool.set i' _)[i] = some e ↔ _
    rw [pool_set_entry]
    by_cases hi : i' = i
    · subst hi
      rw [if_pos rfl, s.freeEntry_some free]
      constructor
      · intro x; cases x; exact absurd he hj
      · intro x; cases x
    · rw [if_neg hi]
  · rw [State.stageMerge_entry, Option.map_eq_some_iff]
    have other : ∀ f : StagingEntry, f.slot = j → mergeEntry k word mask data f = f := fun f hf =>
      if_neg fun x => hj (x.1.symm.trans hf)
    constructor
    · rintro ⟨f, hf, rfl⟩
      rw [mergeEntry_slot] at he
      rw [other f he]; exact hf
    · exact fun x => ⟨e, x, other e he⟩

/-! ### What stays of the flight -/

/-- What the law of the flight reads stays. -/
structure FlightStays (s t : State) : Prop where
  inFlight : t.mp.inFlight = s.mp.inFlight
  held : t.held = s.held
  entries : t.posted.entries = s.posted.entries
  groups : GroupsStay s t
  region : t.region = s.region
  scanner : t.scanner = s.scanner
  op : t.op = s.op
  guardsCleared : t.guardsCleared = s.guardsCleared
  power : t.power = s.power

theorem GroupsStay.workOver {s t : State} (h : GroupsStay s t) (hs : WorkOver s) : WorkOver t := by
  obtain ⟨commitQueue, sealWrites, apply⟩ := hs
  exact ⟨h.commitQueue.trans commitQueue, h.sealWrites.trans sealWrites, h.apply.trans apply⟩

theorem GroupsStay.sealing {s t : State} (h : GroupsStay s t)
    (hs : s.journal.sealWrites ≠ [] ↔ ∃ k, (s.slot k).state = .sealing) :
    t.journal.sealWrites ≠ [] ↔ ∃ k, (t.slot k).state = .sealing := by
  simp only [h.sealWrites, State.slot_congr h.slots]
  exact hs

theorem GroupsStay.applyWrite {s t : State} (h : GroupsStay s t) (region : t.region = s.region) :
    t.applyWrite = s.applyWrite :=
  State.applyWrite_congr (by rw [h.apply]) region fun k _ _ => ⟨State.slot_congr h.slots k, .of_eq h.pool⟩

/-- What the scanner asks for is read through the scanner and the region. -/
theorem State.scannerOp_congr {s t : State} (scanner : t.scanner = s.scanner) (region : t.region = s.region) :
    t.scannerOp = s.scannerOp := by
  simp only [State.scannerOp, State.ring, scanner, region]

theorem FlightStays.flight {s t : State} (h : FlightStays s t) (hs : Flight s) : Flight t where
  read op flying := by rw [h.held]; exact hs.read op (h.inFlight ▸ flying)
  drain op flying := by rw [h.entries]; exact hs.drain op (h.inFlight ▸ flying)
  sealer op flying := by rw [h.groups.sealWrites]; exact hs.sealer op (h.inFlight ▸ flying)
  sealing := h.groups.sealing hs.sealing
  apply op flying := by rw [h.groups.applyWrite h.region]; exact hs.apply op (h.inFlight ▸ flying)
  scanner op flying := by
    rw [h.op, State.scannerOp_congr h.scanner h.region]
    exact hs.scanner op (h.inFlight ▸ flying)
  power down := by
    rw [h.power] at down
    rw [h.inFlight]
    exact ⟨(hs.power down).1, h.groups.workOver (hs.power down).2⟩
  finished notRunning cleared := by
    rw [h.op] at notRunning cleared
    rw [h.guardsCleared] at cleared
    exact h.groups.workOver (hs.finished notRunning cleared)

theorem Stays.flight {s t : State} (h : Stays s t) : FlightStays s t :=
  ⟨by rw [h.mp], h.held, by rw [h.posted], h.groups, h.region, h.scanner, h.op, h.guardsCleared, h.power⟩

/-! ### The grant -/

/-- The arbiter grants nothing; or, in RECOVERING, what the scanner asks for; or else what the first requester with work
asks for, which notes it (R149, R150). -/
theorem State.grant_cases (s : State) :
    s.grant = s ∨
    (s.mayGrant = true ∧ s.op = .recovering ∧ ∃ op, s.scannerOp = some op ∧
      s.grant = { s with mp := { s.mp with inFlight := some { requester := .scanner, op } } }) ∨
    (s.mayGrant = true ∧ s.op ≠ .recovering ∧ ∃ r op, s.nextGrant = some (r, op) ∧ s.nextOp r = some op ∧
      s.grant = ({ s with mp := { s.mp with inFlight := some { requester := .rotor r, op },
                                            rotation := r.next } } : State).noteGrant r) := by
  unfold State.grant
  split
  · next may =>
    split
    · next recovering =>
      split
      · exact .inl rfl
      · next op found => exact .inr (.inl ⟨may, recovering, op, found, rfl⟩)
    · next notRecovering =>
      split
      · exact .inl rfl
      · next r op found =>
        refine .inr (.inr ⟨may, notRecovering, r, op, found, ?_, rfl⟩)
        obtain ⟨r', _, hr'⟩ := List.exists_of_findSome?_eq_some found
        rw [Option.map_eq_some_iff] at hr'
        obtain ⟨op', hop, eq⟩ := hr'
        cases eq
        exact hop
  · exact .inl rfl

theorem State.mayGrant_iff (s : State) :
    s.mayGrant = true ↔ s.power = .up ∧ s.mp.port = .active ∧ s.mp.inFlight = none ∧ s.mp.warning = false := by
  simp [State.mayGrant, and_assoc]

/-- What is granted is what its requester asked for (R148). -/
theorem Flight.grant {s : State} (hs : Flight s) : Flight s.grant := by
  obtain h | ⟨may, recovering, op, found, h⟩ | ⟨may, notRecovering, r, op, _, asked, h⟩ := s.grant_cases <;> rw [h]
  · exact hs
  · obtain ⟨up, _⟩ := s.mayGrant_iff.1 may
    exact ⟨(fun _ x => by cases x), (fun _ x => by cases x), (fun _ x => by cases x), hs.sealing, (fun _ x => by cases x),
      (fun _ x => by cases x; exact ⟨recovering, found⟩), fun down => absurd up down, hs.finished⟩
  · obtain ⟨up, _⟩ := s.mayGrant_iff.1 may
    have down : s.power ≠ .up → ∀ P : Prop, P := fun down => absurd up down
    cases r with
    | read =>
      simp only [State.nextOp] at asked
      split at asked
      · cases asked
      · next held heldSome =>
        split at asked
        · cases asked
        · cases asked
          refine ⟨fun _ x => ?_, (fun _ x => by cases x), (fun _ x => by cases x), hs.sealing, (fun _ x => by cases x),
            (fun _ x => by cases x), fun x => down x _, hs.finished⟩
          cases x
          refine ⟨_, rfl, fun h' held' _ => ?_⟩
          simp only [State.noteGrant, heldSome, Option.map_some, Option.some.injEq] at held'
          rw [← held']
    | drain =>
      simp only [State.nextOp] at asked
      split at asked
      · cases asked
      · next e rest entries =>
        split at asked
        · cases asked
        · cases asked
          have noted : (({ s with mp := { s.mp with
              inFlight := some { requester := .rotor .drain, op := .write e.word e.mask e.data },
              rotation := Rotor.drain.next } } : State).noteGrant .drain) =
            { s with
              mp := { s.mp with inFlight := some { requester := .rotor .drain, op := .write e.word e.mask e.data },
                                rotation := Rotor.drain.next },
              posted := { s.posted with entries := { e with writing := true } :: rest } } := by
            simp [State.noteGrant, entries]
          rw [noted]
          refine ⟨(fun _ x => by cases x), fun _ x => ?_, (fun _ x => by cases x), hs.sealing, (fun _ x => by cases x),
            (fun _ x => by cases x), fun x => down x _, hs.finished⟩
          cases x
          exact ⟨_, rest, rfl, rfl, rfl⟩
    | sealer =>
      simp only [State.nextOp] at asked
      split at asked
      · cases asked
      · next a w rest writes =>
        cases asked
        refine ⟨(fun _ x => by cases x), (fun _ x => by cases x), fun _ x => ?_, hs.sealing, (fun _ x => by cases x),
          (fun _ x => by cases x), fun x => down x _, hs.finished⟩
        cases x
        exact ⟨a, w, rest, writes, rfl⟩
    | apply =>
      refine ⟨(fun _ x => by cases x), (fun _ x => by cases x), (fun _ x => by cases x), hs.sealing, fun _ x => ?_,
        (fun _ x => by cases x), fun x => down x _, hs.finished⟩
      cases x
      exact asked

/-! ### The Posted Write Queue -/

/-- A combined write leaves a WRITING entry at the head as it is (R93). -/
theorem combineInto_head {src : Source} {epoch : Stamp} {word : Addr} {mask : Mask} {data : Word} {e : PostedEntry}
    {rest out : List PostedEntry} (writing : e.writing = true)
    (h : combineInto src epoch word mask data (e :: rest) = some out) : ∃ rest', out = e :: rest' := by
  rw [combineInto] at h
  split at h
  · obtain ⟨rest', _, eq⟩ := Option.map_eq_some_iff.1 h
    exact ⟨rest', eq.symm⟩
  · split at h
    · next takes => simp [PostedEntry.takes, writing] at takes
    · cases h

/-- A posted write leaves a WRITING head entry as it is (R92, R93). -/
theorem State.post_head {s : State} {e : PostedEntry} {rest : List PostedEntry} (head : s.posted.entries = e :: rest)
    (writing : e.writing = true) (src : Source) (word : Addr) (mask : Mask) (data : Word) (combine : Bool) :
    ∃ rest', (s.post src word mask data combine).posted.entries = e :: rest' := by
  unfold State.post
  split
  · next entries combined =>
    split at combined
    · rw [head] at combined
      exact combineInto_head writing combined
    · cases combined
  · exact ⟨_, by rw [State.postNew]; dsimp only; rw [head]; rfl⟩

theorem Flight.post {s : State} (hs : Flight s) (src : Source) (word : Addr) (mask : Mask) (data : Word)
    (combine : Bool) : Flight (s.post src word mask data combine) := by
  have drain : DrainSound (s.post src word mask data combine) := fun op flying => by
    rw [State.post_mp] at flying
    obtain ⟨e, rest, head, writing, rfl⟩ := hs.drain op flying
    obtain ⟨rest', head'⟩ := State.post_head head writing src word mask data combine
    exact ⟨e, rest', head', writing, rfl⟩
  obtain ⟨entries, nextStamp, h⟩ := s.post_eq src word mask data combine
  rw [h] at drain ⊢
  exact ⟨hs.read, drain, hs.sealer, hs.sealing, hs.apply, hs.scanner, hs.power, hs.finished⟩

theorem Flight.blockWrapped {s : State} (hs : Flight s) (of : Source → Bool) : Flight (s.blockWrapped of) := by
  refine ⟨hs.read, fun op flying => ?_, hs.sealer, hs.sealing, hs.apply, hs.scanner, hs.power, hs.finished⟩
  obtain ⟨e, rest, head, writing, rfl⟩ := hs.drain op flying
  refine ⟨_, _, by rw [State.blockWrapped, State.mapPosted]; dsimp only; rw [head, List.map_cons], ?_, ?_⟩
  · split <;> exact writing
  · split <;> rfl

/-! ### The events of the groups -/

/-- One slot changes that is neither APPLYING nor SEALING, before and after, with its entries and the Commit Queue: the
flight stays sound if the work that is over stays so. -/
theorem Flight.of_slot {s t : State} (hs : Flight s) (hg : GroupsSound s) {k : SlotId}
    (idle : (s.slot k).state ≠ .applying) (sealing : (s.slot k).state ≠ .sealing) (sealing' : (t.slot k).state ≠ .sealing)
    (slot : ∀ j, k ≠ j → t.slot j = s.slot j) (entries : ∀ j, k ≠ j → SameEntries j s t)
    (apply : t.apply = s.apply) (region : t.region = s.region) (inFlight : t.mp.inFlight = s.mp.inFlight)
    (held : t.held = s.held) (posted : t.posted.entries = s.posted.entries)
    (sealWrites : t.journal.sealWrites = s.journal.sealWrites) (scanner : t.scanner = s.scanner) (op : t.op = s.op)
    (power : t.power = s.power) (guardsCleared : t.guardsCleared = s.guardsCleared)
    (work : WorkOver s → s.power ≠ .up ∨ s.op ≠ .running → WorkOver t) : Flight t where
  read op flying := by rw [held]; exact hs.read op (inFlight ▸ flying)
  drain op flying := by rw [posted]; exact hs.drain op (inFlight ▸ flying)
  sealer op flying := by rw [sealWrites]; exact hs.sealer op (inFlight ▸ flying)
  sealing := by
    rw [sealWrites, hs.sealing]
    constructor
    · rintro ⟨j, hj⟩
      exact ⟨j, by rw [slot j fun e => sealing (by rw [e]; exact hj)]; exact hj⟩
    · rintro ⟨j, hj⟩
      exact ⟨j, by rw [← slot j fun e => sealing' (by rw [e]; exact hj)]; exact hj⟩
  apply op flying := by rw [hg.applyWrite_of_slot idle slot entries apply region]; exact hs.apply op (inFlight ▸ flying)
  scanner x flying := by rw [op, State.scannerOp_congr scanner region]; exact hs.scanner x (inFlight ▸ flying)
  power down := by
    rw [power] at down
    rw [inFlight]
    exact ⟨(hs.power down).1, work (hs.power down).2 (.inl down)⟩
  finished notRunning cleared := by
    rw [op] at notRunning cleared
    rw [guardsCleared] at cleared
    exact work (hs.finished notRunning cleared) (.inr notRunning)

/-- The words of a record are not none. -/
theorem wordsAt_recordWords_ne_nil (s : State) (r : Region) (offset : Nat) (k : SlotId) (seqNo : Word) :
    wordsAt r offset (s.recordWords k seqNo) ≠ [] := by
  simp [State.recordWords, wordsAt]

theorem State.beginSeal_sealWrites_ne_nil (s : State) (r : Region) (k : SlotId) (rest : List SlotId) :
    (s.beginSeal r k rest).journal.sealWrites ≠ [] :=
  List.append_ne_nil_of_right_ne_nil _ (wordsAt_recordWords_ne_nil s r _ k _)

theorem Flight.beginSeal {s : State} (hs : Flight s) (hg : GroupsSound s) {r : Region} {k : SlotId}
    {rest : List SlotId} (head : s.journal.commitQueue = k :: rest) (due : s.sealConditions k = true) :
    Flight (s.beginSeal r k rest) := by
  have idle : ∀ j, (s.slot j).state ≠ .sealing := by
    simp only [State.sealConditions, State.sealReadyButSpace, Bool.and_eq_true, Option.isNone_iff_eq_none] at due
    exact s.sealingSlot_none due.1.1.1.1.1.2
  have noWrites : s.journal.sealWrites = [] := by
    by_contra writes
    obtain ⟨j, hj⟩ := hs.sealing.1 writes
    exact idle j hj
  have queued : (s.slot k).state = .queued := (hg.2.2.1.2 k).1 (by rw [head]; exact List.mem_cons_self)
  have notOver : ¬ WorkOver s := fun ⟨empty, _⟩ => by rw [head] at empty; cases empty
  have apply : (s.beginSeal r k rest).applyWrite = s.applyWrite :=
    hg.applyWrite_of_slot (k := k) (by rw [queued]; decide) (fun j hj => by rw [State.beginSeal_slot, if_neg hj])
      (fun j _ => .of_eq rfl) rfl rfl
  refine ⟨hs.read, hs.drain, fun op flying => ?_, ?_, fun op flying => ?_, hs.scanner,
    fun down => absurd (hs.power down).2 notOver, fun notRunning cleared => absurd (hs.finished notRunning cleared) notOver⟩
  · obtain ⟨a, w, rest, writes, _⟩ := hs.sealer op flying
    rw [noWrites] at writes
    cases writes
  · refine iff_of_true (s.beginSeal_sealWrites_ne_nil r k rest) ⟨k, ?_⟩
    rw [State.beginSeal_slot, if_pos rfl]
  · rw [apply]; exact hs.apply op flying

theorem Flight.linkReset {s : State} (hs : Flight s) (hg : GroupsSound s) : Flight s.linkReset := by
  have slot : ∀ {k}, (s.slot k).state.freedByReset = false → s.linkReset.slot k = s.slot k := fun h => by
    rw [State.linkReset_slot, if_neg (by simp [h])]
  have work : WorkOver s → WorkOver s.linkReset := fun ⟨_, sealWrites, apply⟩ =>
    ⟨by rw [State.linkReset_journal], by rw [State.linkReset_journal]; exact sealWrites,
      by rw [State.linkReset_apply]; exact apply⟩
  have apply : s.linkReset.applyWrite = s.applyWrite := by
    refine State.applyWrite_congr (by rw [State.linkReset_apply]) (by simp) fun k p applying => ?_
    have state : (s.slot k).state = .applying := (hg.2.2.2.2.1 k).2 ⟨p, applying⟩
    refine ⟨slot (by rw [state]; rfl), fun i e he => ?_⟩
    rw [State.linkReset_entry_iff, and_iff_left]
    rw [he, state]
    rfl
  refine ⟨fun op flying => ?_, fun op flying => ?_, fun op flying => ?_, ?_, fun op flying => ?_, fun op flying => ?_,
    fun down => ?_, fun notRunning cleared => ?_⟩
  · rw [State.linkReset_mp] at flying
    obtain ⟨w, hw, _⟩ := hs.read op flying
    exact ⟨w, hw, fun h held => by rw [State.linkReset_held] at held; cases held⟩
  · rw [State.linkReset_mp] at flying
    obtain ⟨e, rest, head, writing, rfl⟩ := hs.drain op flying
    have entries : s.resetSlots.posted.entries = s.posted.entries := s.resetSlots_entries
    refine ⟨_, _, by rw [State.linkReset_entries_eq, entries, head, List.map_cons], ?_, ?_⟩
    · split <;> exact writing
    · split <;> rfl
  · rw [State.linkReset_mp] at flying
    rw [State.linkReset_journal]
    exact hs.sealer op flying
  · rw [State.linkReset_journal]
    refine hs.sealing.trans ⟨fun ⟨k, hk⟩ => ⟨k, ?_⟩, fun ⟨k, hk⟩ => ⟨k, ?_⟩⟩
    · rw [slot (by rw [hk]; rfl)]; exact hk
    · rw [State.linkReset_slot] at hk
      split at hk
      · cases hk
      · exact hk
  · rw [apply]
    exact hs.apply op (by rwa [State.linkReset_mp] at flying)
  · rw [State.linkReset_op, State.scannerOp_congr (s := s) (by simp) (by simp)]
    exact hs.scanner op (by rwa [State.linkReset_mp] at flying)
  · rw [State.linkReset_power] at down
    rw [State.linkReset_mp]
    exact ⟨(hs.power down).1, work (hs.power down).2⟩
  · rw [State.linkReset_op] at notRunning cleared
    rw [State.linkReset_guardsCleared] at cleared
    exact work (hs.finished notRunning cleared)

/-! ### The wait of RELOAD -/

/-- The wait of RELOAD goes on; or the guards are cleared, or were and the load begins, when the work is drained
(R174, R175). -/
theorem State.endReloadWait_cases (s : State) :
    s.endReloadWait = s ∨ (s.op = .reloading ∧ (s.guardsCleared = true ∨ s.drained = true) ∧
      ∃ windows op guardsCleared, op ≠ .running ∧ s.endReloadWait = { s with windows, op, guardsCleared }) := by
  unfold State.endReloadWait
  split
  · next reloading =>
    dsimp only
    split
    · next h =>
      simp only [Bool.and_eq_true] at h
      refine .inr ⟨reloading, .inr h.1.1, ?_⟩
      split
      · exact ⟨_, .loading, _, by decide, rfl⟩
      · exact ⟨_, .reloading, _, by decide, by rw [State.clearRuntimeGuards, ← reloading]⟩
    · split
      · next h => exact .inr ⟨reloading, .inl h.1, _, .loading, _, by decide, rfl⟩
      · exact .inl rfl
  · exact .inl rfl

theorem Flight.workOver_of_drained {s : State} (hs : Flight s) (drained : s.drained = true) : WorkOver s := by
  simp only [State.drained, Bool.and_eq_true, decide_eq_true_eq, Option.isNone_iff_eq_none] at drained
  obtain ⟨⟨⟨⟨commitQueue, queue⟩, sealing⟩, applying⟩, _⟩ := drained
  refine ⟨commitQueue, ?_, ?_⟩
  · by_contra writes
    obtain ⟨k, hk⟩ := hs.sealing.1 writes
    exact s.sealingSlot_none sealing k hk
  · rw [← queue, ← applying]

/-- While the work is over the Apply Engine has no write due. -/
theorem WorkOver.applyWrite {s : State} (h : WorkOver s) : s.applyWrite = none := by
  rw [State.applyWrite, h.2.2]

/-- The state of the part and what a load installs change, not to RUNNING and not in RECOVERING, while the work is
over. -/
theorem Flight.of_workOver {s t : State} (hs : Flight s) (work : WorkOver s) (op : s.op ≠ .recovering)
    (groups : GroupsStay s t) (inFlight : t.mp.inFlight = s.mp.inFlight) (held : t.held = s.held)
    (posted : t.posted.entries = s.posted.entries) (power : t.power = s.power) : Flight t where
  read op flying := by rw [held]; exact hs.read op (inFlight ▸ flying)
  drain op flying := by rw [posted]; exact hs.drain op (inFlight ▸ flying)
  sealer op flying := by rw [groups.sealWrites]; exact hs.sealer op (inFlight ▸ flying)
  sealing := groups.sealing hs.sealing
  apply op flying := by
    have due := hs.apply op (inFlight ▸ flying)
    rw [work.applyWrite] at due
    cases due
  scanner x flying := absurd (hs.scanner x (inFlight ▸ flying)).1 op
  power down := ⟨inFlight.trans (hs.power (power ▸ down)).1, groups.workOver work⟩
  finished _ _ := groups.workOver work

theorem Flight.endReloadWait {s : State} (hs : Flight s) : Flight s.endReloadWait := by
  obtain h | ⟨reloading, cleared, windows, op, guardsCleared, _, h⟩ := s.endReloadWait_cases
  · rw [h]; exact hs
  · have work : WorkOver s := cleared.elim
      (fun h => hs.finished (by rw [reloading]; decide) fun _ => h) hs.workOver_of_drained
    rw [h]
    exact hs.of_workOver work (by rw [reloading]; decide) (.of_eq rfl rfl rfl rfl rfl) rfl rfl rfl rfl

/-! ### The engines -/

theorem GroupMove.flight {c : Instr} {s t : State} (g : GroupMove c s t) (hs : Flight s) (hg : GroupsSound s) :
    Flight t := by
  cases g with
  | opens src k n unlinked free pos fits =>
    refine hs.of_slot hg (k := k) (by rw [free]; decide) (by rw [free]; decide) ?_
      (fun j hj => by rw [State.takeSlot_slot, if_neg hj]) (fun j _ => .of_eq rfl) rfl rfl rfl rfl rfl rfl rfl rfl rfl rfl
      fun work _ => work
    rw [State.takeSlot_slot, if_pos rfl]
    nofun
  | stages k word mask data window filling own =>
    have after : ((s.slot k).afterWrite window).state ≠ .sealing := by
      rw [Slot.afterWrite]
      dsimp only
      split <;> nofun
    exact hs.of_slot hg (k := k) (by rw [filling]; decide) (by rw [filling]; decide)
      (by rw [State.stageWrite_slot, if_pos rfl]; exact after)
      (fun j hj => by rw [State.stageWrite_slot, if_neg hj]) (fun j hj => .of_stage hj _ _ _ _)
      (by simp) (by simp) (by simp) (by simp) (by simp) (by simp) (by simp) (by simp) (by simp) (by simp)
      fun work _ => by simpa [WorkOver] using work
  | aborts k cause open_ =>
    refine hs.of_slot hg (k := k) (by obtain h | h := open_ <;> rw [h] <;> decide)
      (by obtain h | h := open_ <;> rw [h] <;> decide) ?_
      (fun j hj => by rw [State.abortSlot_slot, if_neg hj])
      (fun j hj => .of_release hj fun i e => s.abortSlot_entry_iff k cause i e)
      (by simp [State.abortSlot]) (by simp [State.abortSlot]) (by simp [State.abortSlot]) (by simp [State.abortSlot])
      (by simp [State.abortSlot]) (by simp [State.abortSlot]) (by simp [State.abortSlot]) (by simp [State.abortSlot])
      (by simp [State.abortSlot]) (by simp [State.abortSlot])
      fun work _ => by simpa [WorkOver, State.abortSlot] using work
    rw [State.abortSlot_slot, if_pos rfl]
    nofun
  | commits src k linked ready running up =>
    refine hs.of_slot hg (k := k) (by rw [ready]; decide) (by rw [ready]; decide) ?_
      (fun j hj => by rw [State.acceptCommit_slot, if_neg hj]) (fun j _ => .of_eq rfl)
      rfl rfl rfl rfl rfl rfl rfl rfl rfl rfl
      fun _ stopped => (stopped.elim (absurd up) (absurd running))
    rw [State.acceptCommit_slot, if_pos rfl]
    nofun
  | discards src k linked open_ =>
    have slot : ∀ j, ((s.freeSlot k).setLink src none).slot j = if j = k then Slot.empty else s.slot j := fun j => by
      rw [State.slot_congr (State.setLink_slots _ _ _), State.freeSlot_slot]
    refine hs.of_slot hg (k := k) (by intro h; rw [h] at open_; cases open_) (by intro h; rw [h] at open_; cases open_)
      ?_ (fun j hj => by rw [slot, if_neg hj.symm])
      (fun j hj => .of_release hj fun i e => ?_)
      (by simp) (by simp) (by simp) (by simp) (by simp) (by simp) (by simp) (by simp) (by simp) (by simp)
      fun work _ => by simpa [WorkOver] using work
    · rw [slot, if_pos rfl]
      decide
    · rw [State.setLink_pool, State.freeSlot_entry_iff]
  | resetsLink => exact hs.linkReset hg
  | beginsSeal r k rest region head due => exact hs.beginSeal hg head due
  | sealsWord landed more =>
    have drops : s.journal.sealWrites.drop 1 ≠ [] ↔ s.journal.sealWrites ≠ [] := by
      refine ⟨fun h e => h (by rw [e]; rfl), fun h => more.elim id fun none => ?_⟩
      obtain ⟨k, hk⟩ := hs.sealing.1 h
      exact absurd hk (s.sealingSlot_none none k)
    have work : WorkOver s → WorkOver { s with journal := { s.journal with sealWrites := s.journal.sealWrites.drop 1 } } :=
      fun ⟨commitQueue, sealWrites, apply⟩ =>
        ⟨commitQueue, by show s.journal.sealWrites.drop 1 = []; rw [sealWrites]; rfl, apply⟩
    exact .of_landed landed (drops.trans hs.sealing) (fun down => work (hs.power down).2)
      fun notRunning cleared => work (hs.finished notRunning cleared)
  | commitPoint k landed sealing =>
    have state := s.sealingSlot_some sealing
    have busy : ¬ WorkOver s := fun work => hs.sealing.2 ⟨k, state⟩ work.2.1
    refine .of_landed landed (iff_of_false (fun h => h rfl) ?_) (fun down => absurd (hs.power down).2 busy)
      fun notRunning cleared => absurd (hs.finished notRunning cleared) busy
    rintro ⟨j, hj⟩
    rw [State.sealSlot_slot] at hj
    split at hj
    · cases hj
    · next other => exact other (hg.2.2.2.2.2 k j state hj)
  | takesApplyHead =>
    obtain h | ⟨k, rest, idle, h⟩ := s.takeApplyHead_cases <;> rw [h]
    · exact hs
    · have sealed : (s.slot k).state = .sealed := (hg.2.2.2.1.2 k).1 (by rw [idle]; exact List.mem_cons_self)
      have busy : ¬ WorkOver s := fun work => by rw [work.2.2] at idle; cases idle
      refine ⟨hs.read, hs.drain, hs.sealer, hs.sealing.trans ?_, fun op flying => ?_, hs.scanner,
        fun down => absurd (hs.power down).2 busy, fun notRunning cleared => absurd (hs.finished notRunning cleared) busy⟩
      · simp only [State.applySlot_slot]
        exact exists_congr fun j => by
          split
          · next h => rw [← h, sealed]; simp
          · rfl
      · have due := hs.apply op flying
        rw [State.applyWrite, idle] at due
        cases due
  | writesHome k applying landed =>
    have busy : ¬ WorkOver s := fun work => by rw [work.2.2] at applying; cases applying
    have stopped : s.power ≠ .up → ∀ {P : Prop}, P := fun down => absurd (hs.power down).2 busy
    have finished : s.op ≠ .running → (s.op = .reloading → s.guardsCleared = true) → ∀ {P : Prop}, P :=
      fun notRunning cleared => absurd (hs.finished notRunning cleared) busy
    obtain h | h := s.homeWritten_cases k <;> rw [h]
    · refine .of_landed landed (hs.sealing.trans (exists_congr fun j => ?_)) (fun down => stopped down)
        fun notRunning cleared => finished notRunning cleared
      rw [State.setSlot_slot]
      split
      · next h => rw [← h]
      · rfl
    · exact .of_landed landed hs.sealing (fun down => stopped down) fun notRunning cleared =>
        finished notRunning cleared
  | retires k applying landed =>
    have state : (s.slot k).state = .applying := (hg.2.2.2.2.1 k).2 ⟨_, applying⟩
    have busy : ¬ WorkOver s := fun work => by rw [work.2.2] at applying; cases applying
    have power : (s.retireSlot k).power = s.power := by simp [State.retireSlot]
    have op : (s.retireSlot k).op = s.op := by simp [State.retireSlot]
    have cleared : (s.retireSlot k).guardsCleared = s.guardsCleared := by simp [State.retireSlot]
    have writes : (s.retireSlot k).journal.sealWrites = s.journal.sealWrites := by simp [State.retireSlot]
    refine .of_landed (by simpa [State.retireSlot] using landed) ?_ ?_ ?_
    · rw [writes, hs.sealing]
      exact exists_congr fun j => by
        rw [State.retireSlot_slot]
        split
        · next h => rw [h, state]; decide
        · rfl
    · rw [power]
      exact fun down => absurd (hs.power down).2 busy
    · rw [op, cleared]
      exact fun notRunning cleared => absurd (hs.finished notRunning cleared) busy
  | cutsPower power by_ down =>
    have work : WorkOver (s.cutMemory.cutCell.powerOnValues power) := ⟨rfl, rfl, rfl⟩
    refine .of_landed rfl (iff_of_false (fun h => h rfl) ?_) (fun _ => work) fun _ _ => work
    rintro ⟨k, hk⟩
    simp [State.powerOnValues, State.reset, State.slot, Slot.empty] at hk

/-- The removal of the head entry changes the Posted Write Queue and the wait sets. -/
theorem State.removeHead_eq (s : State) : ∃ barriers sources,
    s.removeHead = { s with posted := { s.posted with entries := s.posted.entries.tail, barriers }, sources } := by
  unfold State.removeHead
  split
  · next empty => exact ⟨s.posted.barriers, s.sources, by rw [empty, List.tail_nil, ← empty]⟩
  · next e rest entries => exact ⟨_, _, by rw [entries]; rfl⟩

theorem State.removeHead_groupsStay (s : State) : GroupsStay s s.removeHead := by
  unfold State.removeHead
  split
  · exact .of_eq rfl rfl rfl rfl rfl
  · exact ⟨by simp, by simp, (Stays.leaveWaitSets _ _ _).link, by simp, by simp, by simp⟩

theorem Move.flight {c : Instr} {s t : State} (m : Move c s t) (hs : Flight s) (hg : GroupsSound s) : Flight t := by
  cases m with
  | stays h => exact h.flight.flight hs
  | grants => exact hs.grant
  | posts src word mask data combine room => exact hs.post src word mask data combine
  | blocks of => exact hs.blockWrapped of
  | endsReloadWait => exact hs.endReloadWait
  | groups g => exact g.flight hs hg
  | clearsFlags | warns | unwarns | activates | notesRingWait | releasesRing | writesCell =>
    refine FlightStays.flight (s := s) ?_ hs
    exact ⟨rfl, rfl, rfl, ⟨rfl, rfl, fun _ => rfl, rfl, rfl, rfl⟩, rfl, rfl, rfl, rfl, rfl⟩
  | finishesCell cell =>
    obtain ⟨_, _, h⟩ := s.mayFinishCell_eq cell
    rw [h]
    refine FlightStays.flight (s := s) ?_ hs
    exact ⟨rfl, rfl, rfl, .of_eq rfl rfl rfl rfl rfl, rfl, rfl, rfl, rfl, rfl⟩
  | completes by_ =>
    obtain ⟨_, h⟩ := s.completeOp_eq
    rw [h]
    exact .of_landed rfl hs.sealing (fun down => (hs.power down).2) hs.finished
  | quiesces landed =>
    obtain ⟨_, _, h⟩ := s.enterQuiesced_eq
    rw [h]
    exact .of_landed landed hs.sealing (fun down => (hs.power down).2) hs.finished
  | holdsRead h fresh =>
    refine ⟨fun op flying => ?_, hs.drain, hs.sealer, hs.sealing, hs.apply, hs.scanner, hs.power, hs.finished⟩
    obtain ⟨w, hw, _⟩ := hs.read op flying
    refine ⟨w, hw, fun h' held granted => ?_⟩
    cases held
    rw [fresh] at granted
    cases granted
  | dropsRead =>
    refine ⟨fun op flying => ?_, hs.drain, hs.sealer, hs.sealing, hs.apply, hs.scanner, hs.power, hs.finished⟩
    obtain ⟨w, hw, _⟩ := hs.read op flying
    exact ⟨w, hw, nofun⟩
  | removesHead landed =>
    obtain ⟨barriers, sources, h⟩ := s.removeHead_eq
    have groups := s.removeHead_groupsStay
    rw [h] at groups ⊢
    exact .of_landed landed (groups.sealing hs.sealing) (fun down => groups.workOver (hs.power down).2)
      fun notRunning cleared => groups.workOver (hs.finished notRunning cleared)
  | reloads op =>
    refine ⟨hs.read, hs.drain, hs.sealer, hs.sealing, hs.apply, fun x flying => ?_, hs.power,
      fun _ cleared => absurd (cleared rfl) Bool.false_ne_true⟩
    have recovering := (hs.scanner x flying).1
    obtain h | h := op <;> rw [h] at recovering <;> cases recovering
  | scans x landed => exact .of_landed landed hs.sealing (fun down => (hs.power down).2) hs.finished
  | recovers seqCounter landed pos =>
    exact .of_landed landed hs.sealing (fun down => (hs.power down).2) fun notRunning => absurd rfl notRunning
  | installs op valid | failsLoad op =>
    exact hs.of_workOver (hs.finished (by rw [op]; decide) fun h => by rw [op] at h; cases h) (by rw [op]; decide)
      ⟨rfl, rfl, fun _ => rfl, rfl, rfl, rfl⟩ rfl rfl rfl rfl
  | powersUp off =>
    obtain ⟨landed, work⟩ := hs.power off
    exact .of_landed landed hs.sealing (fun _ => work) fun _ _ => work

theorem Flight.pend {s : State} (hs : Flight s) (rest : List Instr) : Flight { s with pending := rest } :=
  FlightStays.flight (s := s) ⟨rfl, rfl, rfl, .of_eq rfl rfl rfl rfl rfl, rfl, rfl, rfl, rfl, rfl⟩ hs

/-- Settles O58: a grant takes what its requester asks for, and nothing changes that while its operation is in flight. -/
theorem stepKeepsTheFlightSound : Obligations.StepKeepsTheFlightSound := by
  intro s t hs hg h
  rw [flightSound_iff] at hs ⊢
  exact (step_keeps (P := fun s => Flight s ∧ GroupsSound s) (fun _ _ h => ⟨h.1.pend _, h.2⟩)
    (fun c s t m hs => ⟨m.flight hs.1 hs.2, m.sound hs.2⟩) ⟨hs, hg⟩ h).1

end Sys2Proof.Machine
end

section
/-! SUPPORT. Laws of every command and every step that no one block carries: the waiting commands, the records, the
memories, the port, the bounds of the queue and the ring; and the laws at reset. -/

namespace Sys2Proof.Machine

/-! ### The waiting commands -/

/-- What the events of the groups leave while the part has power. -/
structure BesideGroups (s t : State) : Prop where
  pending : t.pending = s.pending
  region : t.region = s.region
  mp : t.mp = s.mp
  mem : t.mem = s.mem
  eeprom : t.eeprom = s.eeprom
  length : t.posted.entries.length = s.posted.entries.length

theorem BesideGroups.of_eq {s t : State} (pending : t.pending = s.pending) (region : t.region = s.region)
    (mp : t.mp = s.mp) (mem : t.mem = s.mem) (eeprom : t.eeprom = s.eeprom) (posted : t.posted = s.posted) :
    BesideGroups s t :=
  ⟨pending, region, mp, mem, eeprom, by rw [posted]⟩

/-- An event of the groups leaves the other blocks, or cuts the power. -/
theorem GroupMove.beside_or_cut {c : Instr} {s t : State} (g : GroupMove c s t) :
    BesideGroups s t ∨
    (c = .powerOnReset ∨ c = .powerLoss) ∧ ∃ power, t = s.cutMemory.cutCell.powerOnValues power := by
  cases g with
  | opens | commits | beginsSeal | sealsWord | commitPoint => exact .inl ⟨rfl, rfl, rfl, rfl, rfl, rfl⟩
  | stages | takesApplyHead | discards =>
    exact .inl (.of_eq (by simp) (by simp) (by simp) (by simp) (by simp) (by simp))
  | resetsLink =>
    refine .inl ⟨by simp, by simp, by simp, by simp, by simp, ?_⟩
    rw [State.linkReset_entries_eq, List.length_map, State.resetSlots_entries]
  | aborts =>
    exact .inl (.of_eq (by simp [State.abortSlot]) (by simp [State.abortSlot]) (by simp [State.abortSlot])
      (by simp [State.abortSlot]) (by simp [State.abortSlot]) (by simp [State.abortSlot]))
  | retires =>
    exact .inl (.of_eq (by simp [State.retireSlot]) (by simp [State.retireSlot]) (by simp [State.retireSlot])
      (by simp [State.retireSlot]) (by simp [State.retireSlot]) (by simp [State.retireSlot]))
  | writesHome k =>
    obtain h | h := s.homeWritten_cases k <;> rw [h] <;> exact .inl ⟨rfl, rfl, rfl, rfl, rfl, rfl⟩
  | cutsPower power by_ down => exact .inr ⟨by_, power, rfl⟩

/-- The loss of power keeps the waiting commands. -/
theorem State.cutPower_pending (s : State) (power : Power) :
    (s.cutMemory.cutCell.powerOnValues power).pending = s.pending := by
  obtain ⟨_, _, cell⟩ := s.cutMemory.cutCell_eq
  obtain ⟨_, _, memory⟩ := s.cutMemory_eq
  rw [State.powerOnValues, cell, memory]

/-- No move takes from the queue of commands or adds to it. -/
theorem Move.pending {c : Instr} {s t : State} (m : Move c s t) : t.pending = s.pending := by
  cases m with
  | stays h => exact h.pending
  | groups g =>
    obtain beside | ⟨_, power, rfl⟩ := g.beside_or_cut
    · exact beside.pending
    · exact s.cutPower_pending power
  | quiesces landed => obtain ⟨_, _, h⟩ := s.enterQuiesced_eq; rw [h]
  | removesHead landed => obtain ⟨_, _, h⟩ := s.removeHead_eq; rw [h]
  | finishesCell cell => obtain ⟨_, _, h⟩ := s.mayFinishCell_eq cell; rw [h]
  | clearsFlags | grants | completes | posts | blocks | scans | endsReloadWait => simp
  | warns | unwarns | activates | holdsRead | dropsRead | reloads | writesCell | powersUp | installs | failsLoad
  | notesRingWait | releasesRing | recovers => rfl

/-- Settles O1: this is the definition of a step. -/
theorem stepRunsTheFrontCommand : Obligations.StepRunsTheFrontCommand := fun _ _ _ => rfl

/-- Settles O2: every command is a chain of moves, and no move touches the queue of commands. -/
theorem everyCommandCompletes : Obligations.EveryCommandCompletes := by
  intro c s
  obtain ⟨t, eq, moves⟩ := exec_moves c s
  exact ⟨t, eq, moves.keeps (P := fun x => x.pending = s.pending) (fun _ _ m h => m.pending.trans h) rfl⟩

/-! ### The records -/

theorem State.linkReset_records (s : State) : RecordsGrow s s.linkReset where
  counter n := by
    rw [State.linkReset_counter]
    split
    · generalize (allSlots.countP fun k => (s.slot k).state.discardedByReset) = n'
      induction n' with
      | zero => exact le_rfl
      | succ n' ih =>
        rw [Function.iterate_succ_apply']
        exact ih.trans (le_saturatingSucc _)
    · exact le_rfl
  flag f h := by
    obtain ⟨_, _, _, _, _, _, _, _, _, eq⟩ := s.linkReset_eq
    rw [eq]
    exact h
  lock h := by
    obtain ⟨_, _, _, _, _, _, _, _, _, eq⟩ := s.linkReset_eq
    rw [eq]
    exact h

/-- An event of the groups that is not the loss of power lets the records grow. -/
theorem GroupMove.records {c : Instr} {s t : State} (g : GroupMove c s t) (reset : c ≠ .powerOnReset)
    (loss : c ≠ .powerLoss) : RecordsGrow s t := by
  cases g with
  | opens | commits | beginsSeal | sealsWord | commitPoint => exact .of_ml rfl
  | stages | takesApplyHead | discards => exact .of_ml (by simp)
  | aborts => exact .of_ml (by simp [State.abortSlot])
  | retires => exact .of_ml (by simp [State.retireSlot])
  | writesHome k => obtain h | h := s.homeWritten_cases k <;> (rw [h]; exact .of_ml rfl)
  | resetsLink => exact s.linkReset_records
  | cutsPower power by_ down => exact (by_.elim reset loss).elim

/-- The records grow, but for the flags that command `c` may clear (R179). -/
structure RecordsPersist (c : Instr) (s t : State) : Prop where
  counter : ∀ n, (s.counter n).toNat ≤ (t.counter n).toNat
  lock : s.ml.guardLock = true → t.ml.guardLock = true
  flag : (∀ m, c ≠ .clearFlags m) → (∀ b, c ≠ .managementWriteTransaction b) →
    ∀ f, s.flag f = true → t.flag f = true

theorem RecordsGrow.persist {c : Instr} {s t : State} (h : RecordsGrow s t) : RecordsPersist c s t :=
  ⟨h.counter, h.lock, fun _ _ => h.flag⟩

theorem RecordsPersist.of_ml {c : Instr} {s t : State} (h : t.ml = s.ml) : RecordsPersist c s t :=
  (RecordsGrow.of_ml h).persist

theorem RecordsPersist.trans {c : Instr} {s t u : State} (h : RecordsPersist c s t) (h' : RecordsPersist c t u) :
    RecordsPersist c s u :=
  ⟨fun n => (h.counter n).trans (h'.counter n), fun lock => h'.lock (h.lock lock),
    fun clear write f set => h'.flag clear write f (h.flag clear write f set)⟩

theorem Move.records {c : Instr} {s t : State} (m : Move c s t) (reset : c ≠ .powerOnReset) (loss : c ≠ .powerLoss) :
    RecordsPersist c s t := by
  cases m with
  | clearsFlags mask by_ =>
    refine ⟨fun _ => le_rfl, id, fun clear write => ?_⟩
    obtain ⟨m, rfl⟩ | ⟨b, rfl⟩ := by_
    · exact absurd rfl (clear m)
    · exact absurd rfl (write b)
  | stays h => exact h.records.persist
  | groups g => exact (g.records reset loss).persist
  | quiesces landed => obtain ⟨_, _, h⟩ := s.enterQuiesced_eq; rw [h]; exact .of_ml rfl
  | removesHead landed => obtain ⟨_, _, h⟩ := s.removeHead_eq; rw [h]; exact .of_ml rfl
  | finishesCell cell => obtain ⟨_, _, h⟩ := s.mayFinishCell_eq cell; rw [h]; exact .of_ml rfl
  | failsLoad =>
    refine RecordsGrow.persist (RecordsGrow.trans ?_ (RecordsGrow.setFlag _ .cfgError))
    exact .of_ml rfl
  | grants | completes | posts | blocks | scans | endsReloadWait => exact .of_ml (by simp)
  | warns | unwarns | activates | holdsRead | dropsRead | reloads | writesCell | powersUp
  | notesRingWait | releasesRing | recovers => exact .of_ml rfl
  | installs => exact RecordsGrow.persist (s := s) (.of_eq rfl rfl rfl)

/-- Settles O53: each move but the clearing of flags and the loss of power lets flags, counters and lock grow. -/
theorem flagsCountersAndLockPersist : Obligations.FlagsCountersAndLockPersist := by
  intro c s t reset loss h
  obtain ⟨counter, lock, flag⟩ := (moves_of_exec h).keeps (P := RecordsPersist c s)
    (fun _ _ m h => h.trans (m.records reset loss)) (RecordsGrow.refl s).persist
  exact ⟨counter, lock, flag⟩

/-! ### The completing commands -/

/-- A command that completes an operation does nothing, or takes it out of flight, acts on what has landed, and
settles. -/
theorem exec_of_completes {c : Instr} (completes : Instr.completes c = true) {s t : State} (h : exec c s = .next t) :
    t = s.quiet ∨ ∃ u, Moves .tick s.quiet.completeOp u ∧ t = u.settle := by
  cases c with
  | readComposition parityFault =>
    cases h
    split
    · exact .inr ⟨_, moves_answerRead _ _ _, rfl⟩
    · exact .inl rfl
  | drainWriteCompletion =>
    cases h
    split
    · exact .inr ⟨_, (Move.removesHead _ (completeOp_landed _)).one, rfl⟩
    · exact .inl rfl
  | sealWriteCompletion =>
    cases h
    split
    · exact .inr ⟨_, moves_sealWordWritten _ (completeOp_landed _), rfl⟩
    · exact .inl rfl
  | homeWriteCompletion =>
    cases h
    split
    · next applying =>
      split
      · exact .inr ⟨_, (GroupMove.writesHome _ _ (by rw [State.completeOp_apply]; exact applying)
          (completeOp_landed _)).one, rfl⟩
      · exact .inl rfl
    · exact .inl rfl
  | retirement =>
    cases h
    split
    · next applying =>
      split
      · exact .inr ⟨_, moves_retire _ (by rw [State.completeOp_apply]; exact applying) (completeOp_landed _), rfl⟩
      · exact .inl rfl
    · exact .inl rfl
  | recoveryReadCompletion parityFault =>
    cases h
    split
    · exact .inr ⟨_, moves_scanned _ _ _ (completeOp_landed _), rfl⟩
    · exact .inl rfl
  | replayWriteCompletion =>
    cases h
    split
    · exact .inr ⟨_, (Move.scans _ _ (completeOp_landed _)).one, rfl⟩
    · exact .inr ⟨_, moves_replayed _ _ (completeOp_landed _), rfl⟩
    · exact .inl rfl
  | _ => cases completes

/-! ### The RAM -/

/-- Only a completion and the loss of power change the RAM. -/
theorem Move.mem {c : Instr} {s t : State} (m : Move c s t) (completes : Instr.completes c = false)
    (reset : c ≠ .powerOnReset) (loss : c ≠ .powerLoss) : t.mem = s.mem := by
  cases m with
  | completes by_ => rw [completes] at by_; cases by_
  | stays h => exact h.mem
  | groups g => exact (g.beside_or_cut.resolve_right fun cut => cut.1.elim reset loss).mem
  | quiesces landed => obtain ⟨_, _, h⟩ := s.enterQuiesced_eq; rw [h]
  | removesHead landed => obtain ⟨_, _, h⟩ := s.removeHead_eq; rw [h]
  | finishesCell cell => obtain ⟨_, _, h⟩ := s.mayFinishCell_eq cell; rw [h]
  | clearsFlags | grants | posts | blocks | scans | endsReloadWait => simp
  | warns | unwarns | activates | holdsRead | dropsRead | reloads | writesCell | powersUp | installs | failsLoad
  | notesRingWait | releasesRing | recovers => rfl

theorem Moves.mem {c : Instr} {s t : State} (m : Moves c s t) (completes : Instr.completes c = false)
    (reset : c ≠ .powerOnReset) (loss : c ≠ .powerLoss) : t.mem = s.mem :=
  m.keeps (P := fun x => x.mem = s.mem) (fun _ _ m h => (m.mem completes reset loss).trans h) rfl

/-- The RAM is as it was, or has taken the write in flight (R146, R147). -/
def RamTakesFlight (s t : State) : Prop :=
  t.mem = s.mem ∨ ∃ r word mask data, s.mp.inFlight = some { requester := r, op := .write word mask data } ∧
    t.mem = s.mem.writeWord word mask data

theorem RamTakesFlight.congr {s t u : State} (h : RamTakesFlight s t) (mem : u.mem = t.mem) : RamTakesFlight s u := by
  rw [RamTakesFlight, mem]
  exact h

theorem State.completeOp_ram (s : State) : RamTakesFlight s s.completeOp := by
  unfold State.completeOp
  dsimp only
  split
  · next r word mask data flying => exact .inr ⟨r, word, mask, data, flying, rfl⟩
  · exact .inl rfl

theorem State.cutMemory_ram (s : State) : RamTakesFlight s s.cutMemory := by
  unfold State.cutMemory
  split
  · next r word mask data flying =>
    dsimp only [RamTakesFlight]
    split
    · exact .inr ⟨r, word, mask, data, flying, rfl⟩
    · exact .inl rfl
  · exact .inl rfl

/-- A completion and the loss of power change the RAM by the write in flight at most; no other command changes it. -/
theorem exec_ram {c : Instr} {s t : State} (h : exec c s = .next t) : RamTakesFlight s t := by
  have settles : ∀ u : State, u.settle.mem = u.mem := fun u =>
    (moves_settle (c := .tick) u).mem rfl (by decide) (by decide)
  have cut : ∀ power, (s.cutMemory.cutCell.powerOnValues power).mem = s.cutMemory.mem := fun power => by
    obtain ⟨_, _, cell⟩ := s.cutMemory.cutCell_eq
    rw [State.powerOnValues, cell]
  by_cases completes : Instr.completes c = true
  · obtain rfl | ⟨u, moves, rfl⟩ := exec_of_completes completes h
    · exact .inl rfl
    · exact s.quiet.completeOp_ram.congr ((settles u).trans (moves.mem rfl (by decide) (by decide)))
  · by_cases reset : c = .powerOnReset
    · subst reset
      cases h
      exact s.cutMemory_ram.congr (cut _)
    · by_cases loss : c = .powerLoss
      · subst loss
        cases h
        exact s.cutMemory_ram.congr (cut _)
      · exact .inl ((moves_of_exec h).mem (Bool.eq_false_iff.2 completes) reset loss)

/-- Settles O35: only the completion of the write in flight, or its cut, changes the RAM, and only in its lanes. -/
theorem ramChangesOnlyByTheWriteInFlight : Obligations.RamChangesOnlyByTheWriteInFlight := by
  intro c s t wf h
  obtain same | ⟨r, word, mask, data, flying, written⟩ := exec_ram h
  · exact .inl same
  · refine .inr ⟨r, word, mask, data, flying, fun k => ?_, fun a outside => ?_⟩
    · rw [written]
      exact Memory.get_writeWord_lane wf word mask data k
    · rw [written]
      exact Memory.get_writeWord_outside _ _ _ _ outside

/-! ### The memories -/

theorem RamTakesFlight.wf {s t : State} (h : RamTakesFlight s t) (wf : s.mem.wf = true) : t.mem.wf = true := by
  obtain same | ⟨r, word, mask, data, _, written⟩ := h
  · rw [same]; exact wf
  · rw [written]; exact Memory.wf_writeWord wf word mask data

/-- A cell that finishes or does not leaves the EEPROM in canonical form. -/
theorem State.mayFinishCell_wf {s : State} (wf : s.eeprom.wf = true) (cell : Option (Nat × Byte)) :
    (s.mayFinishCell cell).eeprom.wf = true := by
  unfold State.mayFinishCell
  split
  · exact wf
  · next a b =>
    dsimp only
    split
    · exact Memory.wf_set wf a b
    · exact wf

/-- The loss of power leaves both memories in canonical form. -/
theorem State.cutPower_memories {s : State} (hs : MemoriesCanonical s) (power : Power) :
    MemoriesCanonical (s.cutMemory.cutCell.powerOnValues power) := by
  obtain ⟨mem, eeprom⟩ := hs
  obtain ⟨_, _, memory⟩ := s.cutMemory_eq
  obtain ⟨_, _, cell⟩ := s.cutMemory.cutCell_eq
  refine ⟨s.cutMemory_ram.wf mem |> (by rw [State.powerOnValues, cell]; exact ·), ?_⟩
  exact State.mayFinishCell_wf (by rw [memory]; exact eeprom) _

theorem Move.memories {c : Instr} {s t : State} (m : Move c s t) (hs : MemoriesCanonical s) : MemoriesCanonical t := by
  have kept : ∀ {u : State}, u.mem = s.mem → u.eeprom = s.eeprom → MemoriesCanonical u := fun mem eeprom => by
    rw [MemoriesCanonical, mem, eeprom]
    exact hs
  obtain ⟨mem, eeprom⟩ := hs
  cases m with
  | stays h => exact kept h.mem h.eeprom
  | groups g =>
    obtain beside | ⟨_, power, rfl⟩ := g.beside_or_cut
    · exact kept beside.mem beside.eeprom
    · exact State.cutPower_memories ⟨mem, eeprom⟩ power
  | writesCell a b => exact ⟨mem, Memory.wf_set eeprom a b⟩
  | finishesCell cell =>
    refine ⟨?_, State.mayFinishCell_wf eeprom cell⟩
    obtain ⟨_, _, h⟩ := s.mayFinishCell_eq cell
    rw [h]
    exact mem
  | completes by_ => exact ⟨s.completeOp_ram.wf mem, by rw [State.completeOp_eeprom]; exact eeprom⟩
  | quiesces landed => obtain ⟨_, _, h⟩ := s.enterQuiesced_eq; rw [h]; exact ⟨mem, eeprom⟩
  | removesHead landed => obtain ⟨_, _, h⟩ := s.removeHead_eq; rw [h]; exact ⟨mem, eeprom⟩
  | clearsFlags | grants | posts | blocks | scans | endsReloadWait => exact kept (by simp) (by simp)
  | warns | unwarns | activates | holdsRead | dropsRead | reloads | powersUp | installs | failsLoad
  | notesRingWait | releasesRing | recovers => exact ⟨mem, eeprom⟩

/-! ### The bound of the Posted Write Queue -/

theorem combineInto_length {src : Source} {epoch : Stamp} {word : Addr} {mask : Mask} {data : Word} :
    ∀ {entries out : List PostedEntry}, combineInto src epoch word mask data entries = some out →
      out.length = entries.length
  | [], out, h => by cases h
  | e :: rest, out, h => by
    rw [combineInto] at h
    split at h
    · obtain ⟨rest', found, rfl⟩ := Option.map_eq_some_iff.1 h
      rw [List.length_cons, List.length_cons, combineInto_length found]
    · split at h
      · cases h; rfl
      · cases h

/-- A posted write lengthens the queue by one entry at most (R92, R93). -/
theorem State.post_length (s : State) (src : Source) (word : Addr) (mask : Mask) (data : Word) (combine : Bool) :
    (s.post src word mask data combine).posted.entries.length ≤ s.posted.entries.length + 1 := by
  unfold State.post
  split
  · next entries combined =>
    split at combined
    · exact (combineInto_length combined).le.trans (Nat.le_succ _)
    · cases combined
  · simp [State.postNew]

/-- The note of a grant leaves the Memory Port. -/
theorem State.noteGrant_mp (s : State) (r : Rotor) : (s.noteGrant r).mp = s.mp := by
  obtain ⟨_, _, h⟩ := s.noteGrant_eq r
  rw [h]

theorem State.noteGrant_length (s : State) (r : Rotor) :
    (s.noteGrant r).posted.entries.length = s.posted.entries.length := by
  cases r with
  | drain =>
    simp only [State.noteGrant]
    split
    · rfl
    · next e rest entries => rw [entries]; rfl
  | read | sealer | apply => rfl

theorem State.grant_length (s : State) : s.grant.posted.entries.length = s.posted.entries.length := by
  obtain h | ⟨_, _, _, _, h⟩ | ⟨_, _, r, _, _, _, h⟩ := s.grant_cases <;> rw [h]
  · rw [State.noteGrant_length]

theorem Move.bounded {c : Instr} {s t : State} (m : Move c s t) (hs : QueueBounded s) : QueueBounded t := by
  have kept : ∀ {u : State}, u.posted.entries.length = s.posted.entries.length → QueueBounded u := fun length =>
    length.le.trans hs
  cases m with
  | stays h => exact kept (by rw [h.posted])
  | groups g =>
    obtain beside | ⟨_, power, rfl⟩ := g.beside_or_cut
    · exact kept beside.length
    · exact Nat.zero_le 16
  | posts src word mask data combine room => exact (s.post_length src word mask data combine).trans room
  | blocks of => exact kept (List.length_map _)
  | grants => exact kept s.grant_length
  | removesHead landed =>
    obtain ⟨_, _, h⟩ := s.removeHead_eq
    rw [h]
    exact (List.length_tail.le.trans (Nat.sub_le _ _)).trans hs
  | quiesces landed => obtain ⟨_, _, h⟩ := s.enterQuiesced_eq; rw [h]; exact hs
  | finishesCell cell => obtain ⟨_, _, h⟩ := s.mayFinishCell_eq cell; rw [h]; exact hs
  | clearsFlags | completes | scans | endsReloadWait => exact kept (by simp)
  | warns | unwarns | activates | holdsRead | dropsRead | reloads | writesCell | powersUp | installs | failsLoad
  | notesRingWait | releasesRing | recovers => exact hs

/-! ### The ring and its counter -/

/-- A placement under the space condition stays within the ring (R116, R117). -/
theorem Journal.place_fill (j : Journal) (r : Region) (size : Nat)
    (space : j.fill + (if r.size - j.head < size then r.size - j.head else 0) + size ≤ r.size) :
    (j.place r size).fill ≤ r.size := by
  unfold Journal.place
  split
  · dsimp only; omega
  · next beyond =>
    rw [if_pos (Nat.not_le.1 beyond)] at space
    split
    · dsimp only; omega
    · exact space

/-- The counter after a seal is not 0: at its highest value the numbers begin anew (R122). -/
theorem State.nextSeqNo_succ_ne_zero {s : State} : s.nextSeqNo + 1 ≠ 0 := by
  unfold State.nextSeqNo
  split
  · decide
  · next h =>
    rw [show BitVec.allOnes 32 = 4294967295#32 from rfl] at h
    bv_omega

theorem State.beginSeal_ring {s : State} {r : Region} {k : SlotId} {rest : List SlotId}
    (region : s.region = some r) (due : s.sealConditions k = true) : RingSound (s.beginSeal r k rest) := by
  simp only [State.sealConditions, Bool.and_eq_true, State.spaceReady, region, State.padBytes] at due
  refine ⟨fun r' region' => ?_, State.nextSeqNo_succ_ne_zero (s := s)⟩
  have same : some r = some r' := region.symm.trans region'
  cases same
  exact s.journal.place_fill r _ (of_decide_eq_true due.2)

/-- What the law of the ring reads stays. -/
theorem RingSound.congr {s t : State} (hs : RingSound s) (region : t.region = s.region)
    (fill : t.journal.fill = s.journal.fill)
    (counter : t.journal.seqCounter = s.journal.seqCounter) : RingSound t := by
  rw [RingSound, region, fill, counter]
  exact hs

theorem GroupMove.ring {c : Instr} {s t : State} (g : GroupMove c s t) (hs : RingSound s) : RingSound t := by
  cases g with
  | beginsSeal r k rest region head due => exact State.beginSeal_ring region due
  | cutsPower power by_ down => exact ⟨nofun, (by decide : (1 : Word) ≠ 0)⟩
  | opens | commits | sealsWord | commitPoint => exact hs
  | stages | resetsLink | takesApplyHead | discards => exact hs.congr (by simp) (by simp) (by simp)
  | aborts => exact hs.congr (by simp [State.abortSlot]) (by simp [State.abortSlot]) (by simp [State.abortSlot])
  | retires => exact hs.congr (by simp [State.retireSlot]) (by simp [State.retireSlot]) (by simp [State.retireSlot])
  | writesHome k => obtain h | h := s.homeWritten_cases k <;> rw [h] <;> exact hs.congr rfl rfl rfl

theorem Move.ring {c : Instr} {s t : State} (m : Move c s t) (hs : RingSound s) : RingSound t := by
  cases m with
  | stays h => exact hs.congr h.region (by rw [h.journal]) (by rw [h.journal])
  | groups g => exact g.ring hs
  | releasesRing tail fill le => exact ⟨fun r region => le.trans (hs.1 r region), hs.2⟩
  | recovers seqCounter landed pos => exact ⟨fun _ _ => Nat.zero_le _, pos⟩
  | installs op valid => exact ⟨fun _ _ => Nat.zero_le _, hs.2⟩
  | failsLoad op => exact ⟨nofun, (by decide : (1 : Word) ≠ 0)⟩
  | quiesces landed => obtain ⟨_, _, h⟩ := s.enterQuiesced_eq; rw [h]; exact hs
  | removesHead landed => obtain ⟨_, _, h⟩ := s.removeHead_eq; rw [h]; exact hs
  | finishesCell cell => obtain ⟨_, _, h⟩ := s.mayFinishCell_eq cell; rw [h]; exact hs
  | clearsFlags | grants | completes | posts | blocks | scans | endsReloadWait =>
    exact hs.congr (by simp) (by simp) (by simp)
  | warns | unwarns | activates | holdsRead | dropsRead | reloads | writesCell | powersUp | notesRingWait => exact hs

/-! ### The port -/

/-- A QUIESCED port has nothing in flight and no warning pending: the part of the port's law that every move keeps. -/
def QuiescedIdle (s : State) : Prop := s.mp.port = .quiesced → s.mp.inFlight = none ∧ s.mp.warning = false

/-- A pending warning waits for an operation in flight: kept by every move but a completion. -/
def WarningWaits (s : State) : Prop := s.mp.warning = true → s.mp.inFlight ≠ none

theorem Move.port {c : Instr} {s t : State} (m : Move c s t) (hs : QuiescedIdle s) : QuiescedIdle t := by
  have kept : ∀ {u : State}, u.mp = s.mp → QuiescedIdle u := fun mp => by rw [QuiescedIdle, mp]; exact hs
  have awake : ∀ {u : State}, u.mp.port = .active → QuiescedIdle u := fun active quiesced => by
    rw [active] at quiesced
    cases quiesced
  cases m with
  | stays h => exact kept h.mp
  | groups g =>
    obtain beside | ⟨_, power, rfl⟩ := g.beside_or_cut
    · exact kept beside.mp
    · exact awake rfl
  | grants =>
    obtain h | ⟨may, _, _, _, h⟩ | ⟨may, _, r, _, _, _, h⟩ := s.grant_cases <;> rw [h]
    · exact hs
    · exact awake (s.mayGrant_iff.1 may).2.1
    · exact awake (by rw [State.noteGrant_mp]; exact (s.mayGrant_iff.1 may).2.1)
  | completes by_ =>
    obtain ⟨_, h⟩ := s.completeOp_eq
    rw [h]
    exact fun quiesced => ⟨rfl, (hs quiesced).2⟩
  | quiesces landed => obtain ⟨_, _, h⟩ := s.enterQuiesced_eq; rw [h]; exact fun _ => ⟨landed, rfl⟩
  | warns active flying => exact awake active
  | unwarns active => exact awake active
  | activates quiesced => exact awake rfl
  | removesHead landed => obtain ⟨_, _, h⟩ := s.removeHead_eq; rw [h]; exact hs
  | finishesCell cell => obtain ⟨_, _, h⟩ := s.mayFinishCell_eq cell; rw [h]; exact hs
  | clearsFlags | posts | blocks | scans | endsReloadWait => exact kept (by simp)
  | holdsRead | dropsRead | reloads | writesCell | powersUp | installs | failsLoad | notesRingWait | releasesRing
  | recovers => exact hs

/-- A grant leaves no warning pending on an idle port: it is made only while none is pending. -/
theorem State.grant_warning (s : State) (hs : WarningWaits s) : WarningWaits s.grant := by
  obtain h | ⟨may, _, _, _, h⟩ | ⟨may, _, r, _, _, _, h⟩ := s.grant_cases <;> rw [h]
  · exact hs
  · exact nofun
  · rw [WarningWaits, State.noteGrant_mp]
    exact nofun

theorem Move.warning {c : Instr} {s t : State} (m : Move c s t) (notCompletes : Instr.completes c = false)
    (hs : QuiescedIdle s ∧ WarningWaits s) : WarningWaits t := by
  have kept : ∀ {u : State}, u.mp = s.mp → WarningWaits u := fun mp => by rw [WarningWaits, mp]; exact hs.2
  cases m with
  | completes by_ => rw [notCompletes] at by_; cases by_
  | stays h => exact kept h.mp
  | groups g =>
    obtain beside | ⟨_, power, rfl⟩ := g.beside_or_cut
    · exact kept beside.mp
    · exact nofun
  | grants => exact s.grant_warning hs.2
  | quiesces landed => obtain ⟨_, _, h⟩ := s.enterQuiesced_eq; rw [h]; exact nofun
  | warns active flying => exact fun _ => flying
  | unwarns active => exact nofun
  | activates quiesced => exact fun warning => Bool.noConfusion ((hs.1 quiesced).2.symm.trans warning)
  | removesHead landed => obtain ⟨_, _, h⟩ := s.removeHead_eq; rw [h]; exact hs.2
  | finishesCell cell => obtain ⟨_, _, h⟩ := s.mayFinishCell_eq cell; rw [h]; exact hs.2
  | clearsFlags | posts | blocks | scans | endsReloadWait => exact kept (by simp)
  | holdsRead | dropsRead | reloads | writesCell | powersUp | installs | failsLoad | notesRingWait | releasesRing
  | recovers => exact hs.2

/-- What follows a completion leaves no warning pending on an idle port (R151). -/
theorem State.settle_warning (s : State) : WarningWaits s.settle := by
  refine State.grant_warning _ ?_
  unfold State.quiesceIfWarned
  split
  · obtain ⟨_, _, h⟩ := State.enterQuiesced_eq s.noteRingWait.endReloadWait
    rw [h]
    exact nofun
  · next busy => exact fun warning landed => busy ⟨warning, landed⟩

theorem exec_portSound {c : Instr} {s t : State} (hs : PortSound s) (h : exec c s = .next t) : PortSound t := by
  refine ⟨(moves_of_exec h).keeps (P := QuiescedIdle) (fun _ _ => Move.port) hs.1, ?_⟩
  by_cases completes : Instr.completes c = true
  · obtain rfl | ⟨u, _, rfl⟩ := exec_of_completes completes h
    · exact hs.2
    · exact u.settle_warning
  · exact ((moves_of_exec h).keeps (P := fun x => QuiescedIdle x ∧ WarningWaits x)
      (fun _ _ m hx => ⟨m.port hx.1, m.warning (Bool.eq_false_iff.2 completes) hx⟩) hs).2

/-- Settles O54: the memories, the bounds and the idle QUIESCED port are kept by every move; a completion that leaves a
warning behind is followed by its taking effect. -/
theorem stepKeepsTheBlocksSound : Obligations.StepKeepsTheBlocksSound := by
  intro s t h
  refine ⟨fun hs => step_keeps (fun _ _ => id) (fun _ _ _ => Move.memories) hs h, fun hs => ?_,
    fun hs => step_keeps (fun _ _ => id) (fun _ _ _ => Move.bounded) hs h,
    fun hs => step_keeps (fun _ _ => id) (fun _ _ _ => Move.ring) hs h⟩
  unfold step at h
  split at h
  · cases h
    exact (moves_clockCycle (c := .tick) s).keeps (P := PortSound)
      (fun _ _ m hx => ⟨m.port hx.1, m.warning rfl hx⟩) hs
  · next c rest _ => exact exec_portSound (s := { s with pending := rest }) hs h

/-! ### Reset -/

theorem State.reset_slot (k : SlotId) : State.reset.slot k = Slot.empty := by simp [State.reset, State.slot]

theorem State.reset_source (i : Source) : State.reset.source i = SourceEntry.empty := by
  simp [State.reset, State.source]

theorem State.reset_pool (i : Fin 96) : State.reset.pool[i] = none := by simp [State.reset]

theorem State.reset_window (i : WindowId) : State.reset.windows[i] = Window.empty := by simp [State.reset]

/-- Settles O4: each value is read off the state at reset. -/
theorem resetValues : Obligations.ResetValues := by
  refine ⟨State.reset_slot, State.reset_pool, rfl, rfl, State.reset_source, rfl, rfl, fun k => ?_, rfl, rfl, rfl, rfl, rfl,
    rfl, rfl, fun i => ?_, rfl, rfl, rfl, fun f => ?_, fun c => ?_, rfl, rfl, rfl, rfl, rfl, rfl, rfl, rfl, rfl, rfl⟩
  · simp [State.reset]
  · rw [State.reset_window]
    exact ⟨rfl, rfl⟩
  · cases f <;> rfl
  · cases c <;> rfl

/-- Settles O60: at reset nothing is claimed, reserved, queued, present or in flight. -/
theorem resetIsSound : Obligations.ResetIsSound := by
  have idle : WorkOver State.reset := ⟨rfl, rfl, rfl⟩
  have groups : GroupsSound State.reset := State.powerOnValues_groupsSound State.reset .inReset
  refine ⟨⟨rfl, rfl⟩, ⟨nofun, nofun⟩, Nat.zero_le 16, ⟨nofun, (by decide : (1 : Word) ≠ 0)⟩, ⟨?_, ?_⟩, ?_, groups,
    tableSound_of_absent fun i => by rw [State.reset_window]; rfl, flightSound_iff.2 (.of_landed rfl ?_ (fun _ => idle)
      fun _ _ => idle)⟩
  · intro i j e f he
    rw [State.reset_pool] at he
    cases he
  · intro i e he
    rw [State.reset_pool] at he
    cases he
  · exact State.powerOnValues_reservationsSound State.reset .inReset
  · refine iff_of_false (fun h => h rfl) ?_
    rintro ⟨k, hk⟩
    rw [State.reset_slot] at hk
    cases hk

end Sys2Proof.Machine
end

section
/-! SUPPORT. Requests: what the Request Port does with one before its judgement, the judgement of each kind, and the
claims about READ, the marks and their faults. -/

namespace Sys2Proof.Machine

/-! ### Before the judgement -/

/-- A request that the Request Port does not take waits on the bus (R1). -/
theorem State.request_of_waits {s : State} {src : Source} {kind : RequestKind} {addr : Addr} {judge : State → State}
    (waits : s.busWaits (decide (kind = .write)) = true) :
    s.request src kind addr judge = { s with bus := .waits src } :=
  if_pos waits

/-- A request taken in QUIESCED, or in a state that serves no request, is answered RETRY (R3). -/
theorem State.request_of_retry {s : State} {src : Source} {kind : RequestKind} {addr : Addr} {judge : State → State}
    (takes : s.busWaits (decide (kind = .write)) = false)
    (closed : s.mp.port = .quiesced ∨ s.op = .loading ∨ s.op = .recovering ∨ s.op = .reloading) :
    s.request src kind addr judge = s.reply src .retry := by
  rw [State.request, if_neg (by rw [takes]; decide)]
  split
  · rfl
  · next active =>
    obtain op | op | op := closed.resolve_left active <;> rw [op]

/-- A request taken in UNCONFIGURED is answered FAULT UNCONFIGURED (R3, R163). -/
theorem State.request_of_unconfigured {s : State} {src : Source} {kind : RequestKind} {addr : Addr}
    {judge : State → State} (takes : s.busWaits (decide (kind = .write)) = false) (active : s.mp.port = .active)
    (op : s.op = .unconfigured) :
    s.request src kind addr judge = s.replyFault src kind addr .unconfigured := by
  rw [State.request, if_neg (by rw [takes]; decide), if_neg (by rw [active]; decide), op]

/-- A request taken in RUNNING with the port ACTIVE is judged (R3). -/
theorem State.request_of_judged {s : State} {src : Source} {kind : RequestKind} {addr : Addr} {judge : State → State}
    (takes : s.busWaits (decide (kind = .write)) = false) (active : s.mp.port = .active) (op : s.op = .running) :
    s.request src kind addr judge = judge s := by
  rw [State.request, if_neg (by rw [takes]; decide), if_neg (by rw [active]; decide), op]

theorem State.busWaits_of_closed {s : State} (h : s.power ≠ .up ∨ s.lines.lrst = true ∨ s.held ≠ none) (isWrite : Bool) :
    s.busWaits isWrite = true := by
  obtain h | h | h := h
  · simp [State.busWaits, h]
  · simp [State.busWaits, h]
  · simp [State.busWaits, Option.isSome_iff_ne_none.2 h]

theorem State.busWaits_of_full {s : State} (h : 16 ≤ s.posted.entries.length) : s.busWaits true = true := by
  simp [State.busWaits, h]

theorem State.busWaits_of_open {s : State} (power : s.power = .up) (lrst : s.lines.lrst = false) (held : s.held = none)
    {isWrite : Bool} (room : isWrite = true → s.posted.entries.length < 16) : s.busWaits isWrite = false := by
  cases isWrite with
  | false => simp [State.busWaits, power, lrst, held]
  | true => simp [State.busWaits, power, lrst, held, room rfl]

/-- Settles O9: the cases of the Request Port's own answers, for every kind of request. -/
theorem requestsNotJudged : Obligations.RequestsNotJudged := by
  refine ⟨fun s src addr mask data arg code g => ⟨fun closed => ?_, fun closed => ?_⟩,
    fun s src addr mask data arg code g power lrst held closed => ?_,
    fun s src addr mask data arg code g power lrst held active op => ?_⟩
  · have waits : ∀ isWrite, s.quiet.busWaits isWrite = true := State.busWaits_of_closed (s := s.quiet) closed
    have waits' : ∀ isWrite, (s.quiet.sampleGuard g).busWaits isWrite = true :=
      State.busWaits_of_closed (s := s.quiet.sampleGuard g) closed
    exact ⟨congrArg Host.Outcome.next (State.request_of_waits (waits _)),
      congrArg Host.Outcome.next (State.request_of_waits (waits _)),
      congrArg Host.Outcome.next (State.request_of_waits (waits' _)),
      congrArg Host.Outcome.next (State.request_of_waits (waits _)),
      congrArg Host.Outcome.next (State.request_of_waits (waits _)),
      congrArg Host.Outcome.next (State.request_of_waits (waits _)),
      congrArg Host.Outcome.next (State.request_of_waits (waits _))⟩
  · have waits : (s.quiet.sampleGuard g).busWaits true = true := by
      obtain h | h | h | h := closed
      · exact State.busWaits_of_closed (.inl h) true
      · exact State.busWaits_of_closed (.inr (.inl h)) true
      · exact State.busWaits_of_closed (.inr (.inr h)) true
      · exact State.busWaits_of_full h
    exact congrArg Host.Outcome.next (State.request_of_waits waits)
  · have takes : s.quiet.busWaits false = false := State.busWaits_of_open power lrst held nofun
    have takes' : (s.quiet.sampleGuard g).busWaits false = false := State.busWaits_of_open power lrst held nofun
    refine ⟨congrArg Host.Outcome.next (State.request_of_retry takes closed),
      congrArg Host.Outcome.next (State.request_of_retry takes closed),
      congrArg Host.Outcome.next (State.request_of_retry takes' closed),
      congrArg Host.Outcome.next (State.request_of_retry takes closed),
      congrArg Host.Outcome.next (State.request_of_retry takes closed),
      congrArg Host.Outcome.next (State.request_of_retry takes closed),
      congrArg Host.Outcome.next (State.request_of_retry takes closed), fun room => ?_⟩
    have takesWrite : (s.quiet.sampleGuard g).busWaits true = false :=
      State.busWaits_of_open power lrst held fun _ => room
    exact congrArg Host.Outcome.next (State.request_of_retry takesWrite closed)
  · have takes : s.quiet.busWaits false = false := State.busWaits_of_open power lrst held nofun
    have takes' : (s.quiet.sampleGuard g).busWaits false = false := State.busWaits_of_open power lrst held nofun
    refine ⟨congrArg Host.Outcome.next (State.request_of_unconfigured takes active op),
      congrArg Host.Outcome.next (State.request_of_unconfigured takes active op),
      congrArg Host.Outcome.next (State.request_of_unconfigured takes' active op),
      congrArg Host.Outcome.next (State.request_of_unconfigured takes active op),
      congrArg Host.Outcome.next (State.request_of_unconfigured takes active op),
      congrArg Host.Outcome.next (State.request_of_unconfigured takes active op),
      congrArg Host.Outcome.next (State.request_of_unconfigured takes active op), fun room => ?_⟩
    have takesWrite : (s.quiet.sampleGuard g).busWaits true = false :=
      State.busWaits_of_open power lrst held fun _ => room
    exact congrArg Host.Outcome.next (State.request_of_unconfigured takesWrite active op)

/-! ### Requests that are judged -/

section

variable {s : State}

theorem Serving.exec_read (h : Serving s) (src : Source) (addr : Addr) :
    exec (.read src addr) s = .next (s.quiet.judgeRead src addr) :=
  congrArg Host.Outcome.next (h.request_eq (by decide) src addr _)

theorem Serving.exec_commitMark (h : Serving s) (src : Source) (arg : Byte) (g : Bool) :
    exec (.commitMark src arg g) s = .next ((s.quiet.sampleGuard g).judgeCommit src) :=
  congrArg Host.Outcome.next (h.request_eq (s := s.sampleGuard g) (by decide) src 0 _)

theorem Serving.exec_orderMark (h : Serving s) (src : Source) (arg : Byte) :
    exec (.orderMark src arg) s = .next (s.quiet.judgeOrder src) :=
  congrArg Host.Outcome.next (h.request_eq (by decide) src 0 _)

theorem Serving.exec_flushMark (h : Serving s) (src : Source) (arg : Byte) :
    exec (.flushMark src arg) s = .next (s.quiet.judgeFlush src) :=
  congrArg Host.Outcome.next (h.request_eq (by decide) src 0 _)

theorem Serving.exec_badMark (h : Serving s) (src : Source) (code : BitVec 4) (arg : Byte) :
    exec (.badMark src code arg) s = .next (s.quiet.refuse src .mark 0 .badMark) :=
  congrArg Host.Outcome.next (h.request_eq (by decide) src 0 _)

theorem ServingWrite.exec_write (h : ServingWrite s) (src : Source) (addr : Addr) (mask : Mask) (data : Word)
    (g : Bool) :
    exec (.write src addr mask data g) s = .next ((s.quiet.sampleGuard g).judgeWrite src addr mask data) := by
  obtain ⟨⟨power, op, active, lrst, held⟩, room⟩ := h
  have takes : (s.quiet.sampleGuard g).busWaits true = false :=
    State.busWaits_of_open power lrst held fun _ => room
  exact congrArg Host.Outcome.next (State.request_of_judged takes active op)

end

/-! ### The hold record at a request -/

section

variable (s : State)

/-- A request that is refused clears its hold record, compared before or not (R71). -/
theorem State.refuse_compareHold (src : Source) (same : HeldRequest → Bool) (kind : RequestKind) (addr : Addr)
    (code : FaultCode) : (s.compareHold src same).refuse src kind addr code = s.refuse src kind addr code := by
  obtain ⟨hold, h⟩ := s.compareHold_eq src same
  simp only [State.refuse, State.clearHold, h, State.setSource_setSource, State.setSource_source_self]

/-- A WRITE to an unaligned address, or of mask 0, is refused by its form (R5). -/
theorem State.judgeWrite_of_unaligned {src : Source} {addr : Addr} {mask : Mask} {data : Word}
    (unaligned : addr.toNat % 4 ≠ 0) : s.judgeWrite src addr mask data = s.refuse src .write addr .align := by
  simp only [State.judgeWrite, if_pos unaligned, State.refuse_compareHold]

theorem State.judgeWrite_of_mask_zero {src : Source} {addr : Addr} {data : Word} (aligned : addr.toNat % 4 = 0) :
    s.judgeWrite src addr 0 data = s.refuse src .write addr .mask := by
  simp only [State.judgeWrite, aligned, ne_eq, not_true_eq_false, if_false, if_true, State.refuse_compareHold]

theorem State.judgeRead_of_unaligned {src : Source} {addr : Addr} (unaligned : addr.toNat % 4 ≠ 0) :
    s.judgeRead src addr = s.refuse src .read addr .align := by
  simp only [State.judgeRead, if_pos unaligned, State.refuse]

theorem State.judgeRead_of_hidden {src : Source} {addr : Addr} (aligned : addr.toNat % 4 = 0)
    (hidden : (s.lookup addr).hidden = true) : s.judgeRead src addr = s.refuse src .read addr .hidden := by
  have hidden' : ((s.clearHold src).lookup addr).hidden = true := hidden
  simp only [State.judgeRead, aligned, ne_eq, not_true_eq_false, if_false, hidden', if_true, State.refuse]

theorem State.judgeRead_of_visible {src : Source} {addr : Addr} (aligned : addr.toNat % 4 = 0)
    (visible : (s.lookup addr).hidden = false) :
    s.judgeRead src addr = State.grant { s.clearHold src with
      held := some { source := src, addr, word := (s.lookup addr).word, granted := false }, bus := .held src } := by
  have visible' : ((s.clearHold src).lookup addr).hidden = false := visible
  simp only [State.judgeRead, aligned, ne_eq, not_true_eq_false, if_false, visible', Bool.false_eq_true]
  rfl

end

/-- Settles O10: each form fault is the refusal of its request. -/
theorem formFaults : Obligations.FormFaults := by
  intro s src addr mask data arg code g serving faulted
  refine ⟨fun unaligned => ?_, fun room unaligned => ?_, fun room aligned => ?_, ?_⟩
  · rw [serving.exec_read, State.judgeRead_of_unaligned _ unaligned]
    rfl
  · rw [ServingWrite.exec_write ⟨serving, room⟩, State.judgeWrite_of_unaligned _ unaligned]
    rfl
  · rw [ServingWrite.exec_write ⟨serving, room⟩, State.judgeWrite_of_mask_zero _ aligned]
    rfl
  · rw [serving.exec_badMark]
    rfl

/-- Settles O11: the hidden test decides between the refusal and the held READ. -/
theorem readIsHeldOrHidden : Obligations.ReadIsHeldOrHidden := by
  intro s src addr serving aligned
  refine ⟨fun visible => ?_, fun hidden => ?_⟩
  · rw [serving.exec_read, State.judgeRead_of_visible s.quiet aligned visible]
    rfl
  · rw [serving.exec_read, State.judgeRead_of_hidden s.quiet aligned hidden]
    rfl

/-! ### The source's entry through the operations of a mark -/

section

variable (s : State)

/-- A completion record that is abandoned is counted (R83). -/
def State.countAbandoned (c : Option Completion) : State := if c = none then s else s.count .abandonedNotices

@[simp] theorem State.countAbandoned_none : s.countAbandoned none = s := rfl

@[simp] theorem State.countAbandoned_slots (c : Option Completion) : (s.countAbandoned c).slots = s.slots := by
  unfold State.countAbandoned; split <;> rfl

@[simp] theorem State.countAbandoned_slot (c : Option Completion) (k : SlotId) :
    (s.countAbandoned c).slot k = s.slot k := State.slot_congr (s.countAbandoned_slots c) k

@[simp] theorem State.setSource_slot (i : Source) (e : SourceEntry) (k : SlotId) : (s.setSource i e).slot k = s.slot k :=
  rfl

/-- An abandoned completion record goes from the source's entry, counted. -/
theorem State.setSource_abandon (src : Source) (e : SourceEntry) :
    (s.setSource src e).abandon src =
      (s.countAbandoned e.completion).setSource src { e with completion := none } := by
  cases completion : e.completion with
  | none =>
    rw [State.abandon_of_none _ (by rw [State.setSource_source_self, completion]), State.countAbandoned_none,
      ← completion]
  | some c =>
    rw [State.abandon_of_some _ (c := c) (by rw [State.setSource_source_self, completion]),
      State.setSource_source_self, State.setSource_setSource]
    rfl

/-- The source's entry takes no part in an abort. -/
theorem State.abortGroup_setSource (src : Source) (e : SourceEntry) (k : SlotId) (cause : AbortCause) :
    (s.setSource src e).abortGroup k cause = (s.abortGroup k cause).setSource src e := by
  unfold State.abortGroup
  dsimp only
  split <;> rfl

/-- A refusal clears the hold record of the source's entry. -/
theorem State.setSource_refuse (src : Source) (e : SourceEntry) (kind : RequestKind) (addr : Addr) (code : FaultCode) :
    (s.setSource src e).refuse src kind addr code =
      (s.setSource src { e with hold := none }).replyFault src kind addr code := by
  rw [State.refuse, State.clearHold, State.setSource_source_self, State.setSource_setSource]

/-- An abort that the owner's request brings about, answered (R39, R40). -/
theorem State.setSource_abortAnswer (src : Source) (e : SourceEntry) (k : SlotId) (kind : RequestKind) (addr : Addr)
    (cause : AbortCause) :
    (s.setSource src e).abortAnswer src k kind addr cause =
      ((s.abortGroup k cause).setSource src { e with hold := none }).replyFault src kind addr .aborted := by
  rw [State.abortAnswer, State.abortGroup_setSource, State.setSource_refuse]

/-- What the bus saw takes no part in an abort. -/
theorem State.abortGroup_quiet (k : SlotId) (cause : AbortCause) :
    s.quiet.abortGroup k cause = (s.abortGroup k cause).quiet := by
  unfold State.abortGroup
  dsimp only
  split <;> rfl

theorem State.countAbandoned_quiet (c : Option Completion) : s.quiet.countAbandoned c = (s.countAbandoned c).quiet := by
  unfold State.countAbandoned
  split <;> rfl

theorem State.quiet_source (src : Source) : s.quiet.source src = s.source src := rfl

/-! ### OPEN from a linked source -/

theorem State.judgeOpen_of_open {src : Source} {k : SlotId} (link : (s.source src).link = some k)
    (state : (s.slot k).state = .filling ∨ (s.slot k).state = .ready) (count : Byte) :
    s.judgeOpen src count =
      (((s.countAbandoned (s.source src).completion).abortGroup k .nested).setSource src
        { s.source src with hold := none, completion := none }).replyFault src .openMark 0 .aborted := by
  obtain ⟨hold, h⟩ := s.compareHold_eq src (HeldRequest.isOpenOf count)
  obtain state | state := state <;>
    simp only [State.judgeOpen, h, State.setSource_source_self, link, State.setSource_abandon, State.setSource_slot,
      State.countAbandoned_slot, state, State.setSource_abortAnswer]

theorem State.judgeOpen_of_aborted {src : Source} {k : SlotId} (link : (s.source src).link = some k)
    (state : (s.slot k).state = .aborted) (count : Byte) :
    s.judgeOpen src count =
      ((s.countAbandoned (s.source src).completion).setSource src
        { s.source src with hold := none, completion := none }).replyFault src .openMark 0 .aborted := by
  obtain ⟨hold, h⟩ := s.compareHold_eq src (HeldRequest.isOpenOf count)
  simp only [State.judgeOpen, h, State.setSource_source_self, link, State.setSource_abandon, State.setSource_slot,
    State.countAbandoned_slot, state, State.setSource_refuse]

end

/-- Settles O22: the source's entry loses its records; the slot's state decides about the abort. -/
theorem openFromALinkedSource : Obligations.OpenFromALinkedSource := by
  intro s src n k serving link answered s'
  refine ⟨fun state => ?_, fun state => ?_⟩
  · have base : s.countAbandoned (s.source src).completion = s' := rfl
    rw [serving.exec_openMark, State.judgeOpen_of_open s.quiet link state, State.quiet_source,
      State.countAbandoned_quiet, State.abortGroup_quiet, base]
    generalize s'.abortGroup k .nested = x
    rfl
  · rw [serving.exec_openMark, State.judgeOpen_of_aborted s.quiet link state, State.quiet_source,
      State.countAbandoned_quiet]
    rfl

/-! ### ORDER -/

/-- The entries that an ORDER keeps from combining: the source's, of its new epoch (R95). -/
theorem State.judgeOrder_eq (s : State) (src : Source) :
    s.judgeOrder src =
      { s.setSource src { s.source src with hold := none, epoch := (s.source src).epoch + 1 } with
        bus := .answer src (.done 0),
        posted := { s.posted with entries := s.posted.entries.map fun e =>
          if e.source = src ∧ e.epoch = (s.source src).epoch + 1 then { e with combine := false } else e } } := by
  have advanced : (s.clearHold src).advanceEpoch src =
      s.setSource src { s.source src with hold := none, epoch := (s.source src).epoch + 1 } := by
    simp [State.advanceEpoch, State.clearHold]
  have blocked : ∀ e : PostedEntry,
      (if decide (e.source = src) = true ∧ e.epoch = ((s.setSource src { s.source src with
          hold := none, epoch := (s.source src).epoch + 1 }).source e.source).epoch
        then { e with combine := false } else e) =
        if e.source = src ∧ e.epoch = (s.source src).epoch + 1 then { e with combine := false } else e := fun e => by
    by_cases own : e.source = src
    · simp [own]
    · simp [own]
  rw [State.judgeOrder, advanced, State.blockWrapped, State.mapPosted]
  simp only [blocked]
  rfl

/-- Settles O29: the hold record and the epoch are one change of the source's entry. -/
theorem orderAdvancesTheEpoch : Obligations.OrderAdvancesTheEpoch := by
  intro s src arg serving
  rw [serving.exec_orderMark, State.judgeOrder_eq]
  rfl

/-! ### COMMIT -/

section

variable (s : State)

/-- A COMMIT clears the hold record and is judged by the source's entry (R43, R71). -/
theorem State.judgeCommit_of_filling {src : Source} {k : SlotId} (link : (s.source src).link = some k)
    (state : (s.slot k).state = .filling) :
    s.judgeCommit src =
      (((s.countAbandoned (s.source src).completion).abortGroup k .short).setSource src
        { s.source src with hold := none, completion := none }).replyFault src .commit 0 .aborted := by
  simp only [State.judgeCommit, State.clearHold, State.setSource_source_self, link, State.setSource_abandon,
    State.setSource_slot, State.countAbandoned_slot, state, State.setSource_abortAnswer]

theorem State.judgeCommit_of_aborted {src : Source} {k : SlotId} (link : (s.source src).link = some k)
    (state : (s.slot k).state = .aborted) :
    s.judgeCommit src =
      ((s.countAbandoned (s.source src).completion).setSource src
        { s.source src with hold := none, completion := none }).replyFault src .commit 0 .aborted := by
  simp only [State.judgeCommit, State.clearHold, State.setSource_source_self, link, State.setSource_abandon,
    State.setSource_slot, State.countAbandoned_slot, state]

@[simp] theorem State.countAbandoned_windowGuarded (c : Option Completion) (i : WindowId) :
    (s.countAbandoned c).windowGuarded i = s.windowGuarded i := by
  unfold State.countAbandoned
  split <;> rfl

theorem State.setSource_windowGuarded (src : Source) (e : SourceEntry) (i : WindowId) :
    (s.setSource src e).windowGuarded i = s.windowGuarded i := rfl

theorem State.judgeCommit_of_guarded {src : Source} {k : SlotId} {w : WindowId} (link : (s.source src).link = some k)
    (state : (s.slot k).state = .ready) (window : (s.slot k).window = some w) (guarded : s.windowGuarded w = true) :
    s.judgeCommit src =
      (((s.countAbandoned (s.source src).completion).abortGroup k .guardProtected).setSource src
        { s.source src with hold := none, completion := none }).replyFault src .commit 0 .aborted := by
  simp only [State.judgeCommit, State.clearHold, State.setSource_source_self, link, State.setSource_abandon,
    State.setSource_slot, State.countAbandoned_slot, state, State.commitReady, window, Option.any_some,
    State.setSource_windowGuarded, State.countAbandoned_windowGuarded, guarded, if_true, State.setSource_abortAnswer]

theorem State.judgeCommit_of_unguarded {src : Source} {k : SlotId} {w : WindowId} (link : (s.source src).link = some k)
    (state : (s.slot k).state = .ready) (window : (s.slot k).window = some w) (guarded : s.windowGuarded w = false) :
    s.judgeCommit src =
      (((s.countAbandoned (s.source src).completion).setSource src
        { s.source src with hold := none, completion := none }).acceptCommit src k).noteRingWait := by
  simp only [State.judgeCommit, State.clearHold, State.setSource_source_self, link, State.setSource_abandon,
    State.setSource_slot, State.countAbandoned_slot, state, State.commitReady, window, Option.any_some,
    State.setSource_windowGuarded, State.countAbandoned_windowGuarded, guarded, Bool.false_eq_true, if_false]

/-- A COMMIT with no link and no COMMIT notice abandons a FLUSH notice and is refused (R43, R83). -/
theorem State.judgeCommit_of_noGroup {src : Source} (link : (s.source src).link = none)
    (notice : ∀ c : Completion, (s.source src).completion = some c → ∃ stamps slots, c.notice = .flush stamps slots) :
    s.judgeCommit src =
      ((s.countAbandoned (s.source src).completion).setSource src
        { s.source src with hold := none, completion := none }).replyFault src .commit 0 .noGroup := by
  cases completion : (s.source src).completion with
  | none =>
    simp only [State.judgeCommit, State.clearHold, State.setSource_source_self, link, State.commitUnlinked, completion,
      State.countAbandoned_none]
  | some c =>
    obtain ⟨stamps, slots, flush⟩ := notice c completion
    obtain ⟨notice, status⟩ := c
    simp only at flush
    simp only [State.judgeCommit, State.clearHold, State.setSource_source_self, link, State.commitUnlinked, completion,
      flush, State.setSource_abandon]

/-- A repeated COMMIT is answered RETRY while its notice waits, and DONE when it is READY (R82). -/
theorem State.judgeCommit_of_waiting {src : Source} {k : SlotId} (link : (s.source src).link = none)
    (completion : (s.source src).completion = some { notice := .commit k, status := .waiting }) :
    s.judgeCommit src = (s.clearHold src).reply src .retry := by
  simp only [State.judgeCommit, State.clearHold, State.setSource_source_self, link, State.commitUnlinked, completion]

theorem State.judgeCommit_of_noticed {src : Source} {k : SlotId} {n : Nat} (link : (s.source src).link = none)
    (completion : (s.source src).completion = some { notice := .commit k, status := .ready n }) :
    s.judgeCommit src =
      (s.setSource src { s.source src with hold := none, completion := none }).reply src (.done 0) := by
  simp only [State.judgeCommit, State.clearHold, State.setSource_source_self, link, State.commitUnlinked, completion,
    State.setCompletion, State.setSource_setSource]

/-! ### FLUSH -/

theorem State.judgeFlush_of_waiting {src : Source} {stamps : List Stamp} {slots : List SlotId}
    (completion : (s.source src).completion = some { notice := .flush stamps slots, status := .waiting }) :
    s.judgeFlush src = (s.clearHold src).reply src .retry := by
  simp only [State.judgeFlush, State.clearHold, State.setSource_source_self, completion]

theorem State.judgeFlush_of_noticed {src : Source} {stamps : List Stamp} {slots : List SlotId} {n : Nat}
    (completion : (s.source src).completion = some { notice := .flush stamps slots, status := .ready n }) :
    s.judgeFlush src =
      (s.setSource src { s.source src with hold := none, completion := none }).reply src (.done 0) := by
  simp only [State.judgeFlush, State.clearHold, State.setSource_source_self, completion, State.setCompletion,
    State.setSource_setSource]

/-- A FLUSH that is no repeat abandons a COMMIT notice and is judged anew (R80, R83). -/
theorem State.judgeFlush_of_fresh {src : Source}
    (notice : ∀ c : Completion, (s.source src).completion = some c → ∃ k, c.notice = .commit k) :
    s.judgeFlush src =
      ((s.countAbandoned (s.source src).completion).setSource src
        { s.source src with hold := none, completion := none }).flushFresh src := by
  cases completion : (s.source src).completion with
  | none =>
    simp only [State.judgeFlush, State.clearHold, State.setSource_source_self, completion, State.countAbandoned_none]
  | some c =>
    obtain ⟨k, commit⟩ := notice c completion
    obtain ⟨notice, status⟩ := c
    simp only at commit
    simp only [State.judgeFlush, State.clearHold, State.setSource_source_self, completion, commit,
      State.setSource_abandon]

end

/-- Settles O24: the source's entry loses its records; the slot's state and the guard decide about the abort. -/
theorem commitIsNotAccepted : Obligations.CommitIsNotAccepted := by
  intro s src arg g serving answered s'
  have sampled : (s.quiet.sampleGuard g).countAbandoned (s.source src).completion = s'.quiet := by
    simp only [s', State.countAbandoned]
    split <;> rfl
  have source : (s.quiet.sampleGuard g).source src = s.source src := rfl
  refine ⟨fun k link => ⟨fun state => ?_, fun w state window guarded => ?_, fun state => ?_⟩, fun link notice => ?_⟩
  · rw [serving.exec_commitMark, State.judgeCommit_of_filling (s.quiet.sampleGuard g) link state, source, sampled,
      State.abortGroup_quiet]
    generalize s'.abortGroup k .short = x
    rfl
  · rw [serving.exec_commitMark, State.judgeCommit_of_guarded (s.quiet.sampleGuard g) link state window guarded, source,
      sampled, State.abortGroup_quiet]
    generalize s'.abortGroup k .guardProtected = x
    rfl
  · rw [serving.exec_commitMark, State.judgeCommit_of_aborted (s.quiet.sampleGuard g) link state, source, sampled]
    rfl
  · rw [serving.exec_commitMark, State.judgeCommit_of_noGroup (s.quiet.sampleGuard g) link notice, source, sampled]
    rfl

/-- Settles O25: the completion record decides the answer. -/
theorem repeatsAreAnsweredFromTheRecord : Obligations.RepeatsAreAnsweredFromTheRecord := by
  intro s src arg g serving waits done
  refine ⟨fun k link => ⟨fun completion => ?_, fun n completion => ?_⟩,
    fun stamps slots => ⟨fun completion => ?_, fun n completion => ?_⟩⟩
  · rw [serving.exec_commitMark, State.judgeCommit_of_waiting (s.quiet.sampleGuard g) link completion]
    rfl
  · rw [serving.exec_commitMark, State.judgeCommit_of_noticed (s.quiet.sampleGuard g) link completion]
    rfl
  · rw [serving.exec_flushMark, State.judgeFlush_of_waiting s.quiet completion]
    rfl
  · rw [serving.exec_flushMark, State.judgeFlush_of_noticed s.quiet completion]
    rfl

/-! ### The acceptance of a COMMIT -/

/-- What the acceptance of a COMMIT changes (R45, R102). -/
theorem State.acceptCommit_eq (s : State) (src : Source) (k : SlotId) :
    s.acceptCommit src k =
      { s.setSource src { s.source src with
          link := none, completion := some { notice := .commit k, status := .waiting } } with
        bus := .answer src .retry,
        slots := s.slots.set k { s.slot k with state := .queued, remaining := none, reservation := s.slotLen k },
        journal := { s.journal with commitQueue := s.journal.commitQueue ++ [k] },
        posted := { s.posted with barriers := s.posted.barriers.set k (some s.barrierNow) } } := by
  have entry : ∀ x : State, (x.setLink src none).setCompletion src (some { notice := .commit k, status := .waiting }) =
      x.setSource src { x.source src with
        link := none, completion := some { notice := .commit k, status := .waiting } } := fun x => by
    rw [State.setCompletion, State.setLink, State.setSource_source_self, State.setSource_setSource]
  rw [State.acceptCommit]
  dsimp only
  rw [entry]
  rfl

/-- Settles O23: with no guard on the group's window the READY group is accepted. -/
theorem commitIsAccepted : Obligations.CommitIsAccepted := by
  intro s src k w arg g serving link state window guarded s'
  have sampled : (s.quiet.sampleGuard g).countAbandoned (s.source src).completion = (s'.sampleGuard g).quiet := by
    simp only [s', State.countAbandoned]
    split <;> rfl
  have source : (s.quiet.sampleGuard g).source src = s.source src := rfl
  rw [serving.exec_commitMark, State.judgeCommit_of_unguarded (s.quiet.sampleGuard g) link state window guarded, source,
    State.acceptCommit_eq, State.setSource_setSource, State.setSource_source_self, sampled]
  obtain same | counted : s' = s ∨ s' = s.count .abandonedNotices := ite_eq_or_eq _ _ _
  · rw [same]
    rfl
  · rw [counted]
    rfl

/-! ### FLUSH -/

theorem SlotState.committed_eq (x : SlotState) :
    x.committed = decide (x = .queued ∨ x = .sealing ∨ x = .sealed ∨ x = .applying) := by
  cases x <;> rfl

theorem State.flushStamps_eq_nil_iff (s : State) : s.flushStamps = [] ↔ s.posted.entries = [] := List.map_eq_nil_iff

theorem State.flushFresh_of_nothing {s : State} {src : Source} (entries : s.posted.entries = [])
    (slots : s.flushSlots = []) : s.flushFresh src = s.reply src (.done 0) :=
  if_pos ⟨s.flushStamps_eq_nil_iff.2 entries, slots⟩

theorem State.flushFresh_of_work {s : State} {src : Source} (work : s.posted.entries ≠ [] ∨ s.flushSlots ≠ []) :
    s.flushFresh src =
      (s.setCompletion src (some { notice := .flush s.flushStamps s.flushSlots, status := .waiting })).reply src .retry :=
  if_neg fun ⟨stamps, slots⟩ => work.elim (· (s.flushStamps_eq_nil_iff.1 stamps)) (· slots)

/-- Settles O30: the wait set formed now is empty or it waits. -/
theorem flushFormsItsWaitSet : Obligations.FlushFormsItsWaitSet := by
  intro s src arg serving notice s' slots
  have base : s.quiet.countAbandoned (s.source src).completion = s'.quiet := s.countAbandoned_quiet _
  have judged : exec (.flushMark src arg) s = .next ((s'.quiet.setSource src
      { s.source src with hold := none, completion := none }).flushFresh src) := by
    rw [serving.exec_flushMark, State.judgeFlush_of_fresh s.quiet notice, State.quiet_source, base]
  have posted : s'.posted = s.posted := by
    simp only [s']
    split <;> rfl
  have formed : ∀ e, (s'.quiet.setSource src e).flushSlots = slots := fun e => by
    simp only [State.flushSlots, SlotState.committed_eq, State.setSource_slot, slots, s']
    split <;> rfl
  have stamps : ∀ e, (s'.quiet.setSource src e).flushStamps = s.posted.entries.map PostedEntry.stamp := fun e =>
    congrArg (fun q : PostedQueue => q.entries.map PostedEntry.stamp) posted
  refine ⟨fun entries empty => ?_, fun work => ?_⟩
  · rw [judged, State.flushFresh_of_nothing (posted ▸ entries) ((formed _).trans empty)]
    rfl
  · have work' : s'.posted.entries ≠ [] ∨ slots ≠ [] := by rwa [posted]
    rw [judged, State.flushFresh_of_work (work'.imp_right ((formed _).trans_ne ·)), State.setCompletion,
      State.setSource_source_self, State.setSource_setSource, stamps, formed]
    rfl

/-! ### OPEN from a source without a link -/

section

variable (s : State)

theorem allSlots_eq_finRange : allSlots = List.finRange 4 := rfl

/-- The lowest FREE slot is the one found (R30). -/
theorem State.freeSlotId_of_lowest {k : SlotId} (free : (s.slot k).state = .free)
    (lowest : ∀ j, j < k → (s.slot j).state ≠ .free) : s.freeSlotId = some k := by
  rw [State.freeSlotId, allSlots_eq_finRange, ← Fin.find?_eq_find?_finRange, Fin.find?_eq_some_iff]
  exact ⟨decide_eq_true free, fun j hj => decide_eq_false (lowest j hj)⟩

theorem State.openSlot_of_free {k : SlotId} {n : Nat} (free : (s.slot k).state = .free)
    (lowest : ∀ j, j < k → (s.slot j).state ≠ .free) (fits : n ≤ s.unreserved) : s.openSlot n = some k := by
  rw [State.openSlot, if_pos fits, s.freeSlotId_of_lowest free lowest]

theorem State.openSlot_of_none {n : Nat} (no : s.unreserved < n ∨ ∀ k, (s.slot k).state ≠ .free) :
    s.openSlot n = none := by
  unfold State.openSlot
  split
  · next fits =>
    have taken := no.resolve_left (Nat.not_lt.2 fits)
    exact List.find?_eq_none.2 fun k _ => by simpa using taken k
  · rfl

theorem State.openSlot_setSource (src : Source) (e : SourceEntry) (c : Option Completion) (n : Nat) :
    ((s.countAbandoned c).setSource src e).openSlot n = s.openSlot n := by
  unfold State.countAbandoned
  split <;> rfl

theorem State.holdExpired_setSource (src : Source) (e : SourceEntry) :
    (s.setSource src e).holdExpired src = e.hold.any Hold.expired := by
  rw [State.holdExpired, State.setSource_source_self]
  cases e.hold <;> rfl

/-- A slot taken for a group is the source's (R30). -/
theorem State.takeSlot_setSource (src : Source) (e : SourceEntry) (k : SlotId) (n : Nat) :
    (s.setSource src e).takeSlot src k n =
      { s.setSource src { e with link := some k } with
        slots := s.slots.set k { Slot.empty with state := .filling, owner := some src, declared := some n,
                                                 remaining := some n, reservation := n } } := by
  have entry : (((s.setSource src e).setSlot k { Slot.empty with
      state := .filling, owner := some src, declared := some n, remaining := some n, reservation := n }).source src) = e :=
    s.setSource_source_self src e
  rw [State.takeSlot, State.setLink, entry, ← s.setSource_setSource src e { e with link := some k }]
  rfl

section

variable {s : State} {src : Source} {n : Byte} (pos : 1 ≤ n.toNat) (le : n.toNat ≤ 32) (e : SourceEntry)
include pos le

/-- An OPEN whose hold has EXPIRED is refused, the completion record abandoned (R32, R77). -/
theorem State.openFresh_of_expired {h : Hold} (hold : e.hold = some h) (expired : h.expired = true) :
    (s.setSource src e).openFresh src n =
      ((s.countAbandoned e.completion).setSource src { e with hold := none, completion := none }).replyFault src
        .openMark 0 .noSpace := by
  have legal : ¬ (n.toNat = 0 ∨ 32 < n.toNat) := by omega
  simp only [State.openFresh, if_neg legal, State.setSource_abandon, State.holdExpired_setSource, hold, Option.any_some,
    expired, if_true, State.setSource_refuse]

/-- An OPEN that can be served takes its slot (R30). -/
theorem State.openFresh_of_slot {k : SlotId} (fresh : e.hold.any Hold.expired = false)
    (found : s.openSlot n.toNat = some k) :
    (s.setSource src e).openFresh src n =
      (((s.countAbandoned e.completion).setSource src { e with hold := none, completion := none }).takeSlot src k
        n.toNat).reply src (.done 0) := by
  have legal : ¬ (n.toNat = 0 ∨ 32 < n.toNat) := by omega
  simp only [State.openFresh, if_neg legal, State.setSource_abandon, State.holdExpired_setSource, fresh,
    Bool.false_eq_true, if_false, State.openSlot_setSource, found, State.clearHold, State.setSource_source_self,
    State.setSource_setSource]

/-- An OPEN that cannot be served is held (R31). -/
theorem State.openFresh_of_no_slot (fresh : e.hold.any Hold.expired = false) (found : s.openSlot n.toNat = none) :
    (s.setSource src e).openFresh src n =
      ((s.countAbandoned e.completion).setSource src { e with completion := none }).holdRequest src (.openMark n) := by
  have legal : ¬ (n.toNat = 0 ∨ 32 < n.toNat) := by omega
  simp only [State.openFresh, if_neg legal, State.setSource_abandon, State.holdExpired_setSource, fresh,
    Bool.false_eq_true, if_false, State.openSlot_setSource, found]

end

/-- A request that is held on keeps its record (R74). -/
theorem State.holdRequest_of_held {src : Source} {e : SourceEntry} {h : Hold} (hold : e.hold = some h)
    (request : HeldRequest) :
    (s.setSource src e).holdRequest src request = (s.setSource src e).reply src .retry := by
  simp only [State.holdRequest, State.setSource_source_self, hold]

/-- A request that is held anew makes its record (R72). -/
theorem State.holdRequest_of_new {src : Source} {e : SourceEntry} (hold : e.hold = none) (request : HeldRequest) :
    (s.setSource src e).holdRequest src request =
      (s.setSource src { e with hold := some { request, expired := false, timer := 0 } }).reply src .retry := by
  simp only [State.holdRequest, State.setSource_source_self, hold, State.setSource_setSource]

/-- The OPEN that is held leaves its record to the judgement; another clears it first (R71). -/
theorem State.judgeOpen_of_same {src : Source} {n : Byte} {h : Hold} (link : (s.source src).link = none)
    (hold : (s.source src).hold = some h) (request : h.request = .openMark n) :
    s.judgeOpen src n = (s.setSource src (s.source src)).openFresh src n := by
  rw [State.judgeOpen_of_unlinked s link, State.compareHold_of_same s hold (HeldRequest.isOpenOf_iff.2 request),
    State.setSource_source_eq]

theorem State.judgeOpen_of_different {src : Source} {n : Byte} (link : (s.source src).link = none)
    (different : ∀ h : Hold, (s.source src).hold = some h → h.request ≠ .openMark n) :
    s.judgeOpen src n = (s.setSource src { s.source src with hold := none }).openFresh src n := by
  rw [State.judgeOpen_of_unlinked s link, State.compareHold_of_different s fun h hold =>
    Bool.eq_false_iff.2 fun same => different h hold (HeldRequest.isOpenOf_iff.1 same)]
  rfl

end

/-- Settles O21: the hold comparison leaves the record of the held OPEN or none; then expiry, resources or a hold. -/
theorem openIsServedOrHeld : Obligations.OpenIsServedOrHeld := by
  intro s src n serving link pos le s'
  have base : s.quiet.countAbandoned (s.source src).completion = s'.quiet := s.countAbandoned_quiet _
  have fields : s' = s ∨ s' = s.count .abandonedNotices := ite_eq_or_eq _ _ _
  refine ⟨fun k free lowest fits fresh => ?_, fun h hold request expired => ?_, fun no => ⟨fun h hold request fresh => ?_,
    fun different => ?_⟩⟩
  · have found : s.quiet.openSlot n.toNat = some k := s.openSlot_of_free free lowest fits
    have slots : s'.quiet.slots = s.slots := fields.elim (fun h => by rw [h]; rfl) fun h => by rw [h]; rfl
    have served : ∀ hold : Option Hold, hold.any Hold.expired = false →
        (s.quiet.setSource src { s.source src with hold }).openFresh src n =
        { s'.setSource src { s.source src with hold := none, completion := none, link := some k } with
          bus := .answer src (.done 0),
          slots := s.slots.set k { Slot.empty with state := .filling, owner := some src, declared := some n.toNat,
                                                   remaining := some n.toNat, reservation := n.toNat } } :=
      fun hold unexpired => by
        rw [State.openFresh_of_slot pos le _ unexpired found, State.takeSlot_setSource]
        dsimp only
        rw [base, slots]
        rfl
    rw [serving.exec_openMark]
    by_cases same : ∃ h, (s.source src).hold = some h ∧ h.request = .openMark n
    · obtain ⟨h, hold, request⟩ := same
      rw [State.judgeOpen_of_same s.quiet link hold request]
      exact congrArg Host.Outcome.next (served (s.source src).hold (by rw [hold]; exact fresh h hold request))
    · rw [State.judgeOpen_of_different s.quiet link fun h hold request => same ⟨h, hold, request⟩]
      exact congrArg Host.Outcome.next (served none rfl)
  · rw [serving.exec_openMark, State.judgeOpen_of_same s.quiet link hold request, State.quiet_source,
      State.openFresh_of_expired pos le _ hold expired, base]
    rfl
  · have found : s.quiet.openSlot n.toNat = none := s.openSlot_of_none no
    rw [serving.exec_openMark, State.judgeOpen_of_same s.quiet link hold request,
      State.openFresh_of_no_slot pos le _ (by rw [State.quiet_source, hold]; exact fresh) found, State.quiet_source, base,
      State.holdRequest_of_held _ (e := { s.source src with completion := none }) hold]
    rfl
  · have found : s.quiet.openSlot n.toNat = none := s.openSlot_of_none no
    rw [serving.exec_openMark, State.judgeOpen_of_different s.quiet link different,
      State.openFresh_of_no_slot pos le _ rfl found, State.quiet_source, base, State.holdRequest_of_new _ rfl]
    rfl

/-! ### The abort -/

/-- The notes of an abort: counted, flagged, recorded, and a PROTECTED one a guard refusal as well (R22, R40). -/
def State.noteAbort (s : State) (k : SlotId) (owner : Source) (cause : AbortCause) : State :=
  let noted := ((s.count .abortedGroups).setFlag .groupAborted).recordEnd k owner (.aborted cause)
  if cause = .guardProtected then noted.noteGuardRefusal else noted

theorem State.abortGroup_eq_note (s : State) (k : SlotId) (cause : AbortCause) :
    s.abortGroup k cause = (s.abortSlot k cause).noteAbort k ((s.slot k).owner.getD 0) cause := by
  have slot : (s.releaseEntries k).setSlot k
      { Slot.empty with state := .aborted, owner := (s.slot k).owner, cause := some cause } = s.abortSlot k cause := rfl
  unfold State.abortGroup
  dsimp only
  rw [slot]
  generalize s.abortSlot k cause = x
  rfl

section

variable (s : State) (k : SlotId) (owner : Source) (cause : AbortCause)

/-- The notes of an abort change flags, counters and the last-end record. -/
theorem State.noteAbort_eq : ∃ flags counters, s.noteAbort k owner cause =
    { s with ml := { s.ml with
      flags, counters, lastEnd := some { slot := k, source := owner, outcome := .aborted cause } } } := by
  simp only [State.noteAbort, State.noteGuardRefusal, State.count, State.setFlag, State.recordEnd]
  split
  · exact ⟨_, _, rfl⟩
  · exact ⟨_, _, rfl⟩

theorem State.noteAbort_flag (f : Flag) : (s.noteAbort k owner cause).flag f =
    (s.flag f || decide (f = .groupAborted) || (decide (f = .guardRefused) && decide (cause = .guardProtected))) := by
  have aborted : ∀ x : State, ((x.count .abortedGroups).setFlag .groupAborted).flag f =
      (decide (Flag.groupAborted = f) || x.flag f) := fun x => State.setFlag_flag _ _ _
  have refused : ∀ x : State, x.noteGuardRefusal.flag f = (decide (Flag.guardRefused = f) || x.flag f) := fun x =>
    State.setFlag_flag _ _ _
  unfold State.noteAbort
  dsimp only
  split
  · next protected_ =>
    rw [refused]
    show (_ || ((s.count .abortedGroups).setFlag .groupAborted).flag f) = _
    rw [aborted, protected_]
    cases f <;> simp
  · next other =>
    show ((s.count .abortedGroups).setFlag .groupAborted).flag f = _
    rw [aborted]
    cases f <;> simp [other]

theorem State.noteAbort_counter (c : Counter) : (s.noteAbort k owner cause).counter c =
    if c = .abortedGroups ∨ c = .guardRefusals ∧ cause = .guardProtected then saturatingSucc (s.counter c)
    else s.counter c := by
  have counted : ∀ (x : State) (d : Counter),
      (x.count d).counter c = if c = d then saturatingSucc (x.counter c) else x.counter c := fun x d => by
    rw [State.count_counter]
    by_cases h : d = c
    · simp [h]
    · simp [h, Ne.symm h]
  unfold State.noteAbort
  dsimp only
  split
  · next protected_ =>
    have refused : ((s.count .abortedGroups).count .guardRefusals).counter c =
        if c = .abortedGroups ∨ c = .guardRefusals then saturatingSucc (s.counter c) else s.counter c := by
      rw [counted, counted]
      cases c <;> rfl
    refine refused.trans ?_
    simp [protected_]
  · next other =>
    refine (counted s .abortedGroups).trans ?_
    simp [other]

end

/-- The slot and the Staging Pool are all that an abort changes before its notes. -/
theorem State.abortSlot_eq (s : State) (k : SlotId) (cause : AbortCause) :
    ∃ slots pool, s.abortSlot k cause = { s with slots, pool } := by
  obtain ⟨pool, h⟩ := s.releaseEntries_eq k
  rw [State.abortSlot, h]
  exact ⟨_, pool, rfl⟩

/-- Settles O18: the slot is aborted with its entries gone, and the abort is noted. -/
theorem abortFreesTheGroup : Obligations.AbortFreesTheGroup := by
  intro s k cause
  have flag := (s.abortSlot k cause).noteAbort_flag k ((s.slot k).owner.getD 0) cause
  have counter := (s.abortSlot k cause).noteAbort_counter k ((s.slot k).owner.getD 0) cause
  have slot := fun j => s.abortSlot_slot j k cause
  have entry := s.abortSlot_entry_iff k cause
  obtain ⟨flags, counters, noted⟩ := (s.abortSlot k cause).noteAbort_eq k ((s.slot k).owner.getD 0) cause
  obtain ⟨slots, pool, aborted⟩ := s.abortSlot_eq k cause
  refine ⟨_, s.abortGroup_eq_note k cause, ?_⟩
  rw [noted] at flag counter ⊢
  rw [aborted] at flag counter slot entry ⊢
  exact ⟨rfl, (slot k).trans (if_pos rfl), fun j hj => (slot j).trans (if_neg hj.symm), entry, flag, counter, rfl⟩

end Sys2Proof.Machine
end

section
/-! SUPPORT. The judgement of a WRITE, loose or of a group, by the checks in their order; then the claims about WRITEs. -/

namespace Sys2Proof.Machine

section

variable (s : State)

/-! ### The judgement of a WRITE -/

theorem State.judgeWrite_of_unlinked {src : Source} {addr : Addr} {mask : Mask} (aligned : addr.toNat % 4 = 0)
    (masked : mask ≠ 0) (link : (s.source src).link = none) (data : Word) :
    s.judgeWrite src addr mask data =
      (s.compareHold src (HeldRequest.isWriteTo addr)).looseWrite src addr mask data := by
  obtain ⟨hold, h⟩ := s.compareHold_eq src (HeldRequest.isWriteTo addr)
  simp only [State.judgeWrite, aligned, ne_eq, not_true_eq_false, if_false, masked, h, State.setSource_source_self, link]

theorem State.judgeWrite_of_linked {src : Source} {addr : Addr} {mask : Mask} {k : SlotId}
    (aligned : addr.toNat % 4 = 0) (masked : mask ≠ 0) (link : (s.source src).link = some k) (data : Word) :
    s.judgeWrite src addr mask data =
      (s.compareHold src (HeldRequest.isWriteTo addr)).groupWrite src k addr mask data := by
  obtain ⟨hold, h⟩ := s.compareHold_eq src (HeldRequest.isWriteTo addr)
  simp only [State.judgeWrite, aligned, ne_eq, not_true_eq_false, if_false, masked, h, State.setSource_source_self, link]

/-! ### Loose writes -/

theorem State.setSource_lookup (src : Source) (e : SourceEntry) (addr : Addr) :
    (s.setSource src e).lookup addr = s.lookup addr := rfl

section

variable {s : State} {src : Source} {addr : Addr}

theorem State.looseWrite_of_hidden (hidden : (s.lookup addr).hidden = true) (mask : Mask) (data : Word) :
    s.looseWrite src addr mask data = s.refuse src .write addr .hidden := by
  simp only [State.looseWrite, hidden, if_true]

theorem State.looseWrite_of_ungrouped (visible : (s.lookup addr).hidden = false)
    (grouped : (s.lookup addr).grouped = true) (strict : (s.lookup addr).loose = false) (mask : Mask) (data : Word) :
    s.looseWrite src addr mask data = s.refuse src .write addr .ungrouped := by
  simp only [State.looseWrite, visible, grouped, strict, Bool.not_false, Bool.and_self, Bool.false_eq_true, if_false,
    if_true]

/-- Loose writes are allowed by an address that is not hidden (R13, R17). -/
structure Lookup.AllowsLoose (l : Lookup) : Prop where
  visible : l.hidden = false
  mode : (l.grouped && !l.loose) = false

theorem Lookup.allowsLoose_of {l : Lookup} (visible : l.hidden = false) (mode : l.grouped = false ∨ l.loose = true) :
    l.AllowsLoose :=
  ⟨visible, by obtain h | h := mode <;> simp [h]⟩

theorem State.looseWrite_of_guarded (allowed : (s.lookup addr).AllowsLoose) (guarded : (s.lookup addr).guarded = true)
    (mask : Mask) (data : Word) :
    s.looseWrite src addr mask data = s.noteGuardRefusal.refuse src .write addr .guarded := by
  simp only [State.looseWrite, allowed.visible, allowed.mode, guarded, Bool.false_eq_true, if_false, if_true]

section

variable (allowed : (s.lookup addr).AllowsLoose) (unguarded : (s.lookup addr).guarded = false)
include allowed unguarded

theorem State.looseWrite_of_expired (expired : s.holdExpired src = true) (mask : Mask) (data : Word) :
    s.looseWrite src addr mask data = s.refuse src .write addr .conflict := by
  simp only [State.looseWrite, allowed.visible, allowed.mode, unguarded, Bool.false_eq_true, if_false, expired, if_true]

theorem State.looseWrite_of_claimed (unexpired : s.holdExpired src = false) {e : StagingEntry}
    (claim : s.claimOf (s.lookup addr).word = some e) (mask : Mask) (data : Word) :
    s.looseWrite src addr mask data = s.holdRequest src (.loose addr) := by
  simp only [State.looseWrite, allowed.visible, allowed.mode, unguarded, Bool.false_eq_true, if_false, unexpired, claim]

theorem State.looseWrite_of_unclaimed (unexpired : s.holdExpired src = false)
    (claim : s.claimOf (s.lookup addr).word = none) (mask : Mask) (data : Word) :
    s.looseWrite src addr mask data =
      (((s.clearHold src).post src (s.lookup addr).word mask data (s.lookup addr).combine).reply src (.done 0)).grant := by
  simp only [State.looseWrite, allowed.visible, allowed.mode, unguarded, Bool.false_eq_true, if_false, unexpired, claim]

end

end

end

/-- Settles O14: the checks of a loose write in their order; the hold comparison leaves the held WRITE's record. -/
theorem looseWriteRefusedOrHeld : Obligations.LooseWriteRefusedOrHeld := by
  constructor
  · intro s src addr mask data g serving aligned masked link s' l refused
    obtain ⟨hold, compared⟩ := s'.quiet.compareHold_eq src (HeldRequest.isWriteTo addr)
    have judged : exec (.write src addr mask data g) s =
        .next ((s'.quiet.setSource src { s.source src with hold }).looseWrite src addr mask data) := by
      rw [serving.exec_write]
      exact congrArg Host.Outcome.next
        ((State.judgeWrite_of_unlinked s'.quiet aligned masked link data).trans (by rw [compared]; rfl))
    refine ⟨fun hidden => ?_, fun visible grouped strict => ?_, fun visible mode guarded => ?_⟩
    · rw [judged, State.looseWrite_of_hidden (s := s'.quiet.setSource src _) hidden, State.setSource_refuse]
      rfl
    · rw [judged, State.looseWrite_of_ungrouped (s := s'.quiet.setSource src _) visible grouped strict,
        State.setSource_refuse]
      rfl
    · have counted : ∀ e, (s'.quiet.setSource src e).noteGuardRefusal = s'.noteGuardRefusal.quiet.setSource src e :=
        fun _ => rfl
      rw [judged, State.looseWrite_of_guarded (s := s'.quiet.setSource src _) (Lookup.allowsLoose_of visible mode) guarded,
        counted, State.setSource_refuse]
      rfl
  · intro s src addr mask data g serving aligned masked link s' l visible mode unguarded
    have allowed : l.AllowsLoose := Lookup.allowsLoose_of visible mode
    have judged : exec (.write src addr mask data g) s =
        .next ((s'.quiet.compareHold src (HeldRequest.isWriteTo addr)).looseWrite src addr mask data) := by
      rw [serving.exec_write]
      exact congrArg Host.Outcome.next (State.judgeWrite_of_unlinked s'.quiet aligned masked link data)
    refine ⟨fun h hold same expired => ?_, fun h e hold same fresh claim => ?_, fun e claim different => ?_⟩
    · have isExpired : s'.quiet.holdExpired src = true := by
        rw [State.holdExpired, show (s'.quiet.source src).hold = some h from hold]
        exact expired
      rw [judged, State.compareHold_of_same s'.quiet hold same,
        State.looseWrite_of_expired (s := s'.quiet) allowed unguarded isExpired]
      rfl
    · have unexpired : s'.quiet.holdExpired src = false := by
        rw [State.holdExpired, show (s'.quiet.source src).hold = some h from hold]
        exact fresh
      have entry : s'.quiet = s'.quiet.setSource src (s.source src) := (s'.quiet.setSource_source_eq src).symm
      rw [judged, State.compareHold_of_same s'.quiet hold same,
        State.looseWrite_of_claimed (s := s'.quiet) allowed unguarded unexpired claim, entry,
        State.holdRequest_of_held _ hold, ← entry]
      rfl
    · have unexpired : (s'.quiet.clearHold src).holdExpired src = false := by
        rw [State.holdExpired, State.clearHold_source_self]
      rw [judged, State.compareHold_of_different s'.quiet different,
        State.looseWrite_of_claimed (s := s'.quiet.clearHold src) allowed unguarded unexpired claim, State.clearHold,
        State.holdRequest_of_new _ rfl]
      rfl

/-! ### The Posted Write Queue -/

section

variable {s : State} {src : Source} {word : Addr} {mask : Mask} {data : Word}

theorem State.post_of_combined {entries : List PostedEntry}
    (combined : combineInto src (s.source src).epoch word mask data s.posted.entries = some entries) :
    s.post src word mask data true = { s with posted := { s.posted with entries } } := by
  simp only [State.post, if_true, combined]

theorem State.post_of_new {combine : Bool}
    (alone : combine = false ∨ combineInto src (s.source src).epoch word mask data s.posted.entries = none) :
    s.post src word mask data combine = s.postNew src word mask data combine := by
  have none_ : (if combine then combineInto src (s.source src).epoch word mask data s.posted.entries else none) = none := by
    obtain h | h := alone
    · rw [h]; rfl
    · rw [h, ite_self]
  simp only [State.post, none_]

end

/-- The youngest entry for a word is the one that no later entry names (R93). -/
theorem combineInto_eq_some_iff {src : Source} {epoch : Stamp} {word : Addr} {mask : Mask} {data : Word} :
    ∀ {entries out : List PostedEntry}, combineInto src epoch word mask data entries = some out ↔
      ∃ (before after : List PostedEntry) (e : PostedEntry), entries = before ++ e :: after ∧ e.word = word ∧
        (∀ x ∈ after, x.word ≠ word) ∧ e.source = src ∧ e.epoch = epoch ∧ e.combine = true ∧ e.writing = false ∧
        out = before ++ { e with data := mergeLanes e.data data mask, mask := e.mask ||| mask } :: after
  | [], out => by
    refine ⟨nofun, ?_⟩
    rintro ⟨before, after, e, split, _⟩
    simp at split
  | e :: rest, out => by
    rw [combineInto]
    by_cases later : (rest.any fun x => decide (x.word = word)) = true
    · obtain ⟨y, hy, named⟩ := List.any_eq_true.1 later
      rw [if_pos later, Option.map_eq_some_iff]
      constructor
      · rintro ⟨rest', found, rfl⟩
        obtain ⟨before, after, f, rfl, hw, hn, h1, h2, h3, h4, rfl⟩ := combineInto_eq_some_iff.1 found
        exact ⟨e :: before, after, f, rfl, hw, hn, h1, h2, h3, h4, rfl⟩
      · rintro ⟨before, after, f, entries, hw, hn, h1, h2, h3, h4, rfl⟩
        cases before with
        | nil =>
          obtain ⟨rfl, rfl⟩ := List.cons.inj entries
          exact absurd (of_decide_eq_true named) (hn y hy)
        | cons b before =>
          obtain ⟨rfl, rfl⟩ := List.cons.inj entries
          exact ⟨_, combineInto_eq_some_iff.2 ⟨before, after, f, rfl, hw, hn, h1, h2, h3, h4, rfl⟩, rfl⟩
    · have last : ∀ x ∈ rest, x.word ≠ word := by simpa using later
      rw [if_neg later]
      constructor
      · intro found
        split at found
        · next takes =>
          cases found
          simp only [PostedEntry.takes, Bool.and_eq_true, decide_eq_true_eq, Bool.not_eq_true'] at takes
          obtain ⟨named, ⟨⟨own, present⟩, permitted⟩, waiting⟩ := takes
          exact ⟨[], rest, e, rfl, named, last, own, present, permitted, waiting, rfl⟩
        · cases found
      · rintro ⟨before, after, f, entries, hw, hn, h1, h2, h3, h4, rfl⟩
        cases before with
        | nil =>
          obtain ⟨rfl, rfl⟩ := List.cons.inj entries
          rw [if_pos ⟨hw, by simp [PostedEntry.takes, h1, h2, h3, h4]⟩]
          rfl
        | cons b before =>
          obtain ⟨rfl, rfl⟩ := List.cons.inj entries
          exact absurd hw (last f (List.mem_append_right _ List.mem_cons_self))

/-- A hold record left by the comparison has not EXPIRED when the held WRITE's has not. -/
theorem State.compareHold_unexpired {s : State} {src : Source} {same : HeldRequest → Bool}
    (fresh : ∀ h : Hold, (s.source src).hold = some h → same h.request = true → h.expired = false) :
    (s.compareHold src same).holdExpired src = false := by
  cases hold : (s.source src).hold with
  | none => simp [State.compareHold, hold, State.holdExpired]
  | some h =>
    by_cases held : same h.request = true
    · rw [State.compareHold_of_same s hold held, State.holdExpired, hold]
      exact fresh h hold held
    · rw [State.compareHold_of_different s fun h' hold' => by
        rw [hold] at hold'; cases hold'; exact Bool.eq_false_iff.2 held, State.holdExpired, State.clearHold_source_self]

/-- Settles O15: a write that passes its checks combines or makes an entry; the youngest entry decides. -/
theorem looseWriteIsPosted : Obligations.LooseWriteIsPosted := by
  refine ⟨?_, fun _ _ _ _ _ _ _ => combineInto_eq_some_iff⟩
  intro s src addr mask data g serving aligned masked link s' l visible mode unguarded claim fresh accepted
  have unexpired : (s'.quiet.compareHold src (HeldRequest.isWriteTo addr)).holdExpired src = false :=
    State.compareHold_unexpired (s := s'.quiet) fresh
  obtain ⟨hold, compared⟩ := s'.quiet.compareHold_eq src (HeldRequest.isWriteTo addr)
  rw [compared] at unexpired
  have judged : exec (.write src addr mask data g) s =
      .next ((((s'.quiet.setSource src { s.source src with hold := none }).post src l.word mask data l.combine).reply src
        (.done 0)).grant) := by
    rw [serving.exec_write]
    refine congrArg Host.Outcome.next ((State.judgeWrite_of_unlinked s'.quiet aligned masked link data).trans ?_)
    rw [compared, State.looseWrite_of_unclaimed (s := s'.quiet.setSource src _) (Lookup.allowsLoose_of visible mode)
      unguarded unexpired claim, State.clearHold, State.setSource_source_self, State.setSource_setSource]
    rfl
  have epoch : ((s'.quiet.setSource src { s.source src with hold := none }).source src).epoch = (s.source src).epoch := by
    rw [State.setSource_source_self]
  refine ⟨fun entries combine combined => ?_, fun alone => ?_⟩
  · rw [judged, combine, State.post_of_combined (by rw [epoch]; exact combined)]
    rfl
  · rw [judged, State.post_of_new (alone.imp_right fun h => by rw [epoch]; exact h), State.postNew, epoch]
    rfl

/-! ### Group writes -/

section

variable {s : State} {src : Source} {k : SlotId} {addr : Addr}

theorem State.groupWrite_of_aborted (state : (s.slot k).state = .aborted) (mask : Mask) (data : Word) :
    s.groupWrite src k addr mask data = s.refuse src .write addr .aborted := by
  simp only [State.groupWrite, state]

theorem State.groupWrite_of_ready (state : (s.slot k).state = .ready) (mask : Mask) (data : Word) :
    s.groupWrite src k addr mask data = s.abortAnswer src k .write addr .excess := by
  simp only [State.groupWrite, state]

section

variable (state : (s.slot k).state = .filling)
include state

theorem State.groupWrite_of_other_window (unfit : windowFits (s.slot k).window (s.lookup addr) = false) (mask : Mask)
    (data : Word) : s.groupWrite src k addr mask data = s.abortAnswer src k .write addr .window := by
  simp only [State.groupWrite, state, State.fillingWrite, unfit, Bool.not_false, if_true]

section

variable (fits : windowFits (s.slot k).window (s.lookup addr) = true)
include fits

theorem State.groupWrite_of_guarded (guarded : (s.lookup addr).guarded = true) (mask : Mask) (data : Word) :
    s.groupWrite src k addr mask data = s.abortAnswer src k .write addr .guardProtected := by
  simp only [State.groupWrite, state, State.fillingWrite, fits, Bool.not_true, Bool.false_eq_true, if_false, guarded,
    if_true]

variable (unguarded : (s.lookup addr).guarded = false)
include unguarded

theorem State.groupWrite_of_claimed (unexpired : s.holdExpired src = false) {e : StagingEntry}
    (claim : s.claimOf (s.lookup addr).word = some e) (other : e.slot ≠ k) (mask : Mask) (data : Word) :
    s.groupWrite src k addr mask data = s.holdRequest src (.group addr) := by
  simp only [State.groupWrite, state, State.fillingWrite, fits, Bool.not_true, Bool.false_eq_true, if_false, unguarded,
    claim, Option.any_some, ne_eq, other, not_false_eq_true, decide_true, if_true, unexpired]

theorem State.groupWrite_of_own (own : ∀ e, s.claimOf (s.lookup addr).word = some e → e.slot = k) (mask : Mask)
    (data : Word) :
    s.groupWrite src k addr mask data =
      (((s.clearHold src).stage k (s.lookup addr).word mask data).takeWrite k (s.lookup addr).window).reply src
        (.done 0) := by
  have free : ((s.claimOf (s.lookup addr).word).any fun e => decide (e.slot ≠ k)) = false := by
    cases claim : s.claimOf (s.lookup addr).word with
    | none => rfl
    | some e => simp [own e claim]
  simp only [State.groupWrite, state, State.fillingWrite, fits, Bool.not_true, Bool.false_eq_true, if_false, unguarded,
    free]

end

end

/-- A group write that is judged meets the source's entry with some hold record of it (R71). -/
theorem ServingWrite.exec_groupWrite {mask : Mask} {data : Word} {g : Bool} (serving : ServingWrite s)
    (aligned : addr.toNat % 4 = 0) (masked : mask ≠ 0) (link : (s.source src).link = some k) :
    exec (.write src addr mask data g) s =
      .next (((s.sampleGuard g).quiet.compareHold src (HeldRequest.isWriteTo addr)).groupWrite src k addr mask data) := by
  rw [serving.exec_write]
  exact congrArg Host.Outcome.next (State.judgeWrite_of_linked (s.sampleGuard g).quiet aligned masked link data)

end

/-- Settles O17: the slot's state, the window, the guard and the claim in their order. -/
theorem groupWriteHeldOrAborted : Obligations.GroupWriteHeldOrAborted := by
  constructor
  · intro s src k addr mask data g e serving aligned masked link state s' l fits unguarded claim other
    refine ⟨fun h hold same fresh => ?_, fun different => ?_⟩
    · have unexpired : s'.quiet.holdExpired src = false := by
        rw [State.holdExpired, show (s'.quiet.source src).hold = some h from hold]
        exact fresh
      have entry : s'.quiet = s'.quiet.setSource src (s.source src) := (s'.quiet.setSource_source_eq src).symm
      rw [serving.exec_groupWrite aligned masked link, State.compareHold_of_same s'.quiet hold same,
        State.groupWrite_of_claimed (s := s'.quiet) state fits unguarded unexpired claim other, entry,
        State.holdRequest_of_held _ hold, ← entry]
      rfl
    · have unexpired : (s'.quiet.clearHold src).holdExpired src = false := by
        rw [State.holdExpired, State.clearHold_source_self]
      rw [serving.exec_groupWrite aligned masked link, State.compareHold_of_different s'.quiet different,
        State.groupWrite_of_claimed (s := s'.quiet.clearHold src) state fits unguarded unexpired claim other,
        State.clearHold, State.holdRequest_of_new _ rfl]
      rfl
  · intro s src k addr mask data g serving aligned masked link s' l answered
    obtain ⟨hold, compared⟩ := s'.quiet.compareHold_eq src (HeldRequest.isWriteTo addr)
    have judged : exec (.write src addr mask data g) s =
        .next ((s'.quiet.setSource src { s.source src with hold }).groupWrite src k addr mask data) := by
      rw [serving.exec_groupWrite aligned masked link]
      exact congrArg (fun x : State => Host.Outcome.next (x.groupWrite src k addr mask data)) compared
    have aborts : ∀ cause, (s'.quiet.setSource src { s.source src with hold }).abortAnswer src k .write addr cause =
        answered (s'.abortGroup k cause) := fun cause => by
      rw [State.setSource_abortAnswer, State.abortGroup_quiet]
      generalize s'.abortGroup k cause = x
      rfl
    refine ⟨fun state => ?_, fun state => ?_, fun state unfit => ?_, fun state fits guarded => ?_⟩
    · rw [judged, State.groupWrite_of_aborted (s := s'.quiet.setSource src _) state, State.setSource_refuse]
      rfl
    · rw [judged, State.groupWrite_of_ready (s := s'.quiet.setSource src _) state, aborts]
    · rw [judged, State.groupWrite_of_other_window (s := s'.quiet.setSource src _) state unfit, aborts]
    · rw [judged, State.groupWrite_of_guarded (s := s'.quiet.setSource src _) state fits guarded, aborts]

/-! ### Staging -/

/-- The lowest free place is the one found (R53). -/
theorem State.freeEntry_of_lowest {s : State} {i : Fin 96} (free : s.pool[i] = none)
    (lowest : ∀ j : Fin 96, j < i → s.pool[j] ≠ none) : s.freeEntry = some i := by
  rw [State.freeEntry, ← Fin.find?_eq_find?_finRange, Fin.find?_eq_some_iff]
  refine ⟨by rw [free]; rfl, fun j hj => ?_⟩
  rw [Option.isNone_eq_false_iff, Option.isSome_iff_ne_none]
  exact lowest j hj

/-- The slot's side of staging, after the pool's (R37). -/
theorem State.takeWrite_pool_eq {s : State} {k : SlotId} {n : Nat} (remaining : (s.slot k).remaining = some (n + 1))
    (pool : Pool) (window : Option WindowId) :
    ({ s with pool } : State).takeWrite k window =
      { s with pool, slots := s.slots.set k { s.slot k with
        window := if (s.slot k).window.isSome then (s.slot k).window else window, remaining := some n,
        state := if n = 0 then .ready else .filling } } := by
  have left : (({ s with pool } : State).slot k).remaining.getD 0 - 1 = n := by
    show (s.slot k).remaining.getD 0 - 1 = n
    rw [remaining]
    rfl
  unfold State.takeWrite
  dsimp only
  rw [left]
  rfl

/-- What the judgement of a group's window comes to (R34). -/
theorem windowFits_none {l : Lookup} :
    windowFits none l = true ↔ (∃ i, l.window = some i) ∧ l.grouped = true ∧ l.hidden = false := by
  simp [windowFits, Option.isSome_iff_exists, and_assoc]

theorem windowFits_some {l : Lookup} (j : WindowId) : windowFits (some j) l = true ↔ l.window = some j := by
  simp [windowFits]

/-- Settles O16: the write is staged in the pool and then taken by the slot. -/
theorem groupWriteIsStaged : Obligations.GroupWriteIsStaged := by
  refine ⟨?_, fun l => ⟨windowFits_none, windowFits_some⟩⟩
  intro s src k n addr mask data g serving aligned masked link state remaining s' l fits unguarded staged
  obtain ⟨hold, compared⟩ := s'.quiet.compareHold_eq src (HeldRequest.isWriteTo addr)
  have judged : (∀ e, s.claimOf l.word = some e → e.slot = k) → exec (.write src addr mask data g) s =
      .next ((((s'.quiet.setSource src { s.source src with hold := none }).stage k l.word mask data).takeWrite k
        l.window).reply src (.done 0)) := fun own => by
    rw [serving.exec_groupWrite aligned masked link]
    refine congrArg Host.Outcome.next ?_
    rw [show (s.sampleGuard g).quiet.compareHold src (HeldRequest.isWriteTo addr) = _ from compared,
      State.groupWrite_of_own (s := s'.quiet.setSource src _) state fits unguarded own, State.clearHold,
      State.setSource_source_self, State.setSource_setSource]
    rfl
  refine ⟨fun i claim free lowest => ?_, fun e claim own => ?_⟩
  · have found : (s'.quiet.setSource src { s.source src with hold := none }).freeEntry = some i :=
      State.freeEntry_of_lowest (s := s'.quiet.setSource src _) free lowest
    have unclaimed : (s'.quiet.setSource src { s.source src with hold := none }).claimOf l.word = none := claim
    rw [judged (by rw [claim]; exact nofun), State.stage, unclaimed]
    dsimp only
    rw [State.stageNew, found]
    dsimp only
    rw [State.takeWrite_pool_eq (s := s'.quiet.setSource src _) remaining]
    rfl
  · have claimed : (s'.quiet.setSource src { s.source src with hold := none }).claimOf l.word = some e := claim
    refine ⟨(s.stageMerge k l.word mask data).pool, ?_, fun i => s.stageMerge_entry k l.word mask data i⟩
    rw [judged (by rw [claim]; rintro _ ⟨⟩; exact own), State.stage, claimed]
    dsimp only
    rw [State.stageMerge, State.takeWrite_pool_eq (s := s'.quiet.setSource src _) remaining]
    rfl

/-! ### Guards -/

/-- No write is accepted: the Posted Write Queue stays, and no entry is staged. -/
structure AcceptsNothing (s t : State) : Prop where
  posted : t.posted = s.posted
  entry : ∀ (i : Fin 96) (e : StagingEntry), t.pool[i] = some e → s.pool[i] = some e

theorem AcceptsNothing.of_eq {s t : State} (posted : t.posted = s.posted) (pool : t.pool = s.pool) :
    AcceptsNothing s t :=
  ⟨posted, fun _ _ h => by rwa [pool] at h⟩

theorem AcceptsNothing.refuse {s t : State} (h : AcceptsNothing s t) (src : Source) (kind : RequestKind) (addr : Addr)
    (code : FaultCode) : AcceptsNothing s (t.refuse src kind addr code) :=
  ⟨h.posted, h.entry⟩

theorem AcceptsNothing.abortAnswer {s t : State} (h : AcceptsNothing s t) (src : Source) (k : SlotId)
    (kind : RequestKind) (addr : Addr) (cause : AbortCause) : AcceptsNothing s (t.abortAnswer src k kind addr cause) := by
  obtain ⟨_, rfl, _, _, _, entry, _⟩ := abortFreesTheGroup t k cause
  refine AcceptsNothing.refuse ⟨?_, fun i e he => h.entry i e ((entry i e).1 he).1⟩ src kind addr .aborted
  rw [State.abortGroup_posted]
  exact h.posted

/-- A WRITE under a guard is refused, or ends its group (R18 to R20, R35). -/
theorem State.judgeWrite_of_guarded {s : State} {src : Source} {addr : Addr} (guarded : (s.lookup addr).guarded = true)
    (mask : Mask) (data : Word) : AcceptsNothing s (s.judgeWrite src addr mask data) := by
  obtain ⟨hold, compared⟩ := s.compareHold_eq src (HeldRequest.isWriteTo addr)
  have same : AcceptsNothing s (s.setSource src { s.source src with hold }) := .of_eq rfl rfl
  by_cases aligned : addr.toNat % 4 = 0
  · by_cases masked : mask = 0
    · rw [masked, State.judgeWrite_of_mask_zero s aligned]
      exact (AcceptsNothing.of_eq rfl rfl).refuse _ _ _ _
    · cases link : (s.source src).link with
      | none =>
        rw [State.judgeWrite_of_unlinked s aligned masked link, compared, State.looseWrite, State.setSource_lookup]
        dsimp only
        split
        · exact same.refuse _ _ _ _
        · split
          · exact same.refuse _ _ _ _
          · refine AcceptsNothing.refuse ?_ _ _ _ _
            exact .of_eq rfl rfl
      | some k =>
        rw [State.judgeWrite_of_linked s aligned masked link, compared]
        cases state : (s.slot k).state with
        | filling =>
          cases fits : windowFits (s.slot k).window (s.lookup addr) with
          | false =>
            rw [State.groupWrite_of_other_window (s := s.setSource src _) state fits]
            exact same.abortAnswer _ _ _ _ _
          | true =>
            rw [State.groupWrite_of_guarded (s := s.setSource src _) state fits guarded]
            exact same.abortAnswer _ _ _ _ _
        | ready =>
          rw [State.groupWrite_of_ready (s := s.setSource src _) state]
          exact same.abortAnswer _ _ _ _ _
        | free | aborted | queued | sealing | sealed | applying =>
          simp only [State.groupWrite, State.setSource_slot, state]
          exact same.refuse _ _ _ _
  · rw [State.judgeWrite_of_unaligned s aligned]
    exact (AcceptsNothing.of_eq rfl rfl).refuse _ _ _ _

/-- Nothing is committed: the Commit Queue stays, and slot `k` is not QUEUED. -/
structure CommitsNothing (s : State) (k : SlotId) (t : State) : Prop where
  commitQueue : t.journal.commitQueue = s.journal.commitQueue
  slot : (t.slot k).state ≠ .queued

theorem CommitsNothing.abort {s t : State} {k : SlotId} (h : t.journal = s.journal) (src : Source) (e : SourceEntry)
    (cause : AbortCause) (kind : RequestKind) (addr : Addr) (code : FaultCode) :
    CommitsNothing s k (((t.abortGroup k cause).setSource src e).replyFault src kind addr code) := by
  obtain ⟨_, rfl, _, slot, _⟩ := abortFreesTheGroup t k cause
  refine ⟨?_, ?_⟩
  · show (t.abortGroup k cause).journal.commitQueue = _
    rw [State.abortGroup_journal, h]
  · show ((t.abortGroup k cause).slot k).state ≠ _
    rw [slot]
    nofun

theorem State.countAbandoned_journal (s : State) (c : Option Completion) : (s.countAbandoned c).journal = s.journal := by
  unfold State.countAbandoned
  split <;> rfl

/-- A COMMIT under a guard is refused, or ends its group (R44). -/
theorem State.judgeCommit_commitsNothing {s : State} {src : Source} {k : SlotId} {w : WindowId}
    (link : (s.source src).link = some k) (notQueued : (s.slot k).state ≠ .queued) (window : (s.slot k).window = some w)
    (guarded : s.windowGuarded w = true) : CommitsNothing s k (s.judgeCommit src) := by
  cases state : (s.slot k).state with
  | filling =>
    rw [State.judgeCommit_of_filling s link state]
    exact .abort (s.countAbandoned_journal _) _ _ _ _ _ _
  | ready =>
    rw [State.judgeCommit_of_guarded s link state window guarded]
    exact .abort (s.countAbandoned_journal _) _ _ _ _ _ _
  | queued => exact absurd state notQueued
  | free | aborted | sealing | sealed | applying =>
    simp only [State.judgeCommit, State.clearHold, State.setSource_source_self, link, State.setSource_abandon,
      State.setSource_slot, State.countAbandoned_slot, state]
    refine ⟨congrArg Journal.commitQueue (s.countAbandoned_journal _), ?_⟩
    show ((s.countAbandoned (s.source src).completion).slot k).state ≠ _
    rw [State.countAbandoned_slot]
    exact notQueued

/-- Settles O19: what the judgement of a guarded request does, and that nothing else is done with it. -/
theorem noGuardedWriteIsAccepted : Obligations.NoGuardedWriteIsAccepted := by
  constructor
  · intro s t src addr mask data g guarded h
    have accepts : AcceptsNothing s t := by
      cases h
      obtain h | h | h | h := (s.quiet.sampleGuard g).request_cases src .write addr fun s => s.judgeWrite src addr mask data
      all_goals rw [h]
      · exact .of_eq rfl rfl
      · exact .of_eq rfl rfl
      · exact .of_eq rfl rfl
      · obtain ⟨posted, entry⟩ := State.judgeWrite_of_guarded (s := s.quiet.sampleGuard g) (src := src) guarded mask data
        exact ⟨posted, entry⟩
    exact ⟨accepts.posted, accepts.entry⟩
  · intro s t src k w arg g link notQueued window guarded h
    have commits : CommitsNothing s k t := by
      cases h
      obtain h | h | h | h := (s.quiet.sampleGuard g).request_cases src .commit 0 fun s => s.judgeCommit src
      all_goals rw [h]
      · exact ⟨rfl, notQueued⟩
      · exact ⟨rfl, notQueued⟩
      · exact ⟨rfl, notQueued⟩
      · obtain ⟨commitQueue, slot⟩ :=
          State.judgeCommit_commitsNothing (s := s.quiet.sampleGuard g) link notQueued window guarded
        exact ⟨commitQueue, slot⟩
    exact ⟨commits.commitQueue, commits.slot⟩

end Sys2Proof.Machine
end

section
/-! SUPPORT. The Memory Port and the read path: what a READ sees, the grant, what follows a completion, the power-fail
warning. -/

namespace Sys2Proof.Machine

/-! ### The read path -/

/-- Nothing is in flight any more. -/
def State.landed (s : State) : State := { s with mp := { s.mp with inFlight := none } }

/-- The completion of an operation takes it out of flight; a write has its bytes in the RAM (R144, R146). -/
theorem State.completeOp_of_read {s : State} {r : Requester} {word : Addr}
    (flying : s.mp.inFlight = some { requester := r, op := .read word }) :
    s.completeOp = s.landed := by
  simp only [State.completeOp, flying, State.landed]

theorem State.completeOp_of_write {s : State} {r : Requester} {word : Addr} {mask : Mask} {data : Word}
    (flying : s.mp.inFlight = some { requester := r, op := .write word mask data }) :
    s.completeOp = { s.landed with mem := s.mem.writeWord word mask data } := by
  simp only [State.completeOp, flying, State.landed]

theorem State.answerRead_of_granted {s : State} {h : HeldRead} (held : s.held = some h) (granted : h.granted = true)
    (memory : Word) :
    s.answerRead false memory =
        ({ s with held := none } : State).reply h.source (.done (s.composeRead h.source h.word memory)) ∧
      s.answerRead true memory =
        ({ s with held := none } : State).noteParity.replyFault h.source .read h.addr .parity := by
  simp only [State.answerRead, held, granted, if_true, Bool.false_eq_true, if_false, and_true]
  rfl

theorem State.answerRead_of_gone {s : State} (gone : ∀ h : HeldRead, s.held = some h → h.granted = false)
    (parityFault : Bool) (memory : Word) : s.answerRead parityFault memory = s := by
  cases held : s.held with
  | none => simp only [State.answerRead, held]
  | some h => simp only [State.answerRead, held, gone h held, Bool.false_eq_true, if_false]

/-- The word read of the read path completes. -/
theorem exec_readComposition {s : State} {w : Addr}
    (flying : s.mp.inFlight = some { requester := .rotor .read, op := .read w }) (parityFault : Bool) :
    exec (.readComposition parityFault) s = .next
      (s.quiet.landed.answerRead parityFault (s.mem.readWord w)).settle := by
  have flying' : s.quiet.mp.inFlight = some { requester := .rotor .read, op := .read w } := flying
  simp only [exec, execReadComposition, flying', State.completeOp_of_read flying']
  rfl

/-- Settles O12: the held READ stands granted, or it has gone. -/
theorem readCompositionAnswersTheRead : Obligations.ReadCompositionAnswersTheRead := by
  intro s w flying
  refine ⟨fun h held granted => ?_, fun p gone => ?_⟩
  · obtain ⟨done, parity⟩ := State.answerRead_of_granted
      (s := s.quiet.landed) held granted (s.mem.readWord w)
    rw [exec_readComposition flying, exec_readComposition flying, done, parity]
    exact ⟨rfl, rfl⟩
  · rw [exec_readComposition flying, State.answerRead_of_gone (s := s.quiet.landed) gone]
    rfl

/-- A lane of the youngest posted entry for the word that covers it, else of memory. -/
def postedLane (word : Addr) (k : Fin 4) (entries : List PostedEntry) (memory : Word) : Byte :=
  match (entries.filter fun e => decide (e.word = word) && e.mask.getLsbD k.val).getLast? with
  | some e => lane e.data k
  | none => lane memory k

/-- The youngest posted entry for the word that covers a lane gives the lane (R106). -/
theorem lane_overlayPosted (word : Addr) (k : Fin 4) : ∀ (entries : List PostedEntry) (memory : Word),
    lane (overlayPosted entries word memory) k = postedLane word k entries memory
  | [], _ => rfl
  | e :: rest, memory => by
    have ih := lane_overlayPosted word k rest
    have first : overlayPosted (e :: rest) word memory =
        overlayPosted rest word (if e.word = word then mergeLanes memory e.data e.mask else memory) := rfl
    rw [first, ih, postedLane, postedLane, List.filter_cons]
    by_cases covers : (decide (e.word = word) && e.mask.getLsbD k.val) = true
    · rw [if_pos covers, List.getLast?_cons]
      simp only [Bool.and_eq_true, decide_eq_true_eq] at covers
      obtain ⟨named, covered⟩ := covers
      rw [if_pos named, lane_mergeLanes, if_pos covered]
      cases (rest.filter fun e => decide (e.word = word) && e.mask.getLsbD k.val).getLast? <;> rfl
    · have kept : lane (if e.word = word then mergeLanes memory e.data e.mask else memory) k = lane memory k := by
        split
        · next named =>
          rw [lane_mergeLanes, if_neg fun covered => covers (by rw [decide_eq_true named, covered]; rfl)]
        · rfl
      rw [if_neg covers, kept]

/-- Settles O13: lane by lane, and the claiming slot's state by its cases. -/
theorem whatAReadSees : Obligations.WhatAReadSees := by
  refine ⟨fun s src word memory k => ?_, fun s src word => ⟨fun claim => ?_, fun e claim => ⟨fun state => ?_,
    fun state => ?_, fun state => ?_⟩⟩⟩
  · have posted := lane_overlayPosted word k s.posted.entries memory
    unfold State.composeRead
    dsimp only
    cases s.overlayFor src word with
    | none => exact posted
    | some e => exact (lane_mergeLanes _ _ _ _).trans (by rw [posted]; rfl)
  · simp only [State.overlayFor, claim]
  · obtain state | state := state <;> simp only [State.overlayFor, claim, state]
  · obtain state | state := state <;> simp only [State.overlayFor, claim, state]
  · obtain state | state := state <;> simp only [State.overlayFor, claim, state]

/-! ### The grant -/

/-- The first requester with work from the rotation point (R149). -/
theorem State.nextGrant_of_first {s : State} {before after : List Rotor} {r : Rotor} {op : WordOp}
    (order : Rotor.order s.mp.rotation = before ++ r :: after) (idle : ∀ x ∈ before, s.nextOp x = none)
    (asks : s.nextOp r = some op) : s.nextGrant = some (r, op) := by
  have none_ : before.findSome? (fun x => (s.nextOp x).map fun op => (x, op)) = none := by
    rw [List.findSome?_eq_none_iff]
    intro x hx
    rw [idle x hx]
    rfl
  rw [State.nextGrant, order, List.findSome?_append, none_, Option.none_or, List.findSome?_cons, asks]
  rfl

theorem State.nextGrant_of_idle {s : State} (idle : ∀ r, s.nextOp r = none) : s.nextGrant = none := by
  rw [State.nextGrant, List.findSome?_eq_none_iff]
  intro x _
  rw [idle x]
  rfl

theorem State.grant_of_scanner {s : State} (may : s.mayGrant = true) (recovering : s.op = .recovering) :
    s.grant = match s.scannerOp with
      | none => s
      | some op => { s with mp := { s.mp with inFlight := some { requester := .scanner, op } } } := by
  refine (if_pos may).trans ((if_pos recovering).trans ?_)
  cases s.scannerOp <;> rfl

theorem State.grant_of_idle {s : State} (notRecovering : s.op ≠ .recovering) (idle : ∀ r, s.nextOp r = none) :
    s.grant = s := by
  unfold State.grant
  rw [if_neg notRecovering, State.nextGrant_of_idle idle]
  exact ite_self _

theorem State.grant_of_first {s : State} (may : s.mayGrant = true) (notRecovering : s.op ≠ .recovering) {r : Rotor}
    {op : WordOp} (first : s.nextGrant = some (r, op)) :
    s.grant = ({ s with mp := { s.mp with inFlight := some { requester := .rotor r, op },
                                          rotation := r.next } } : State).noteGrant r := by
  simp only [State.grant, may, if_true, notRecovering, if_false, first]

/-- What the drain asks for is the head entry's bytes (R97). -/
theorem State.nextOp_drain_some {s : State} {op : WordOp} (asks : s.nextOp .drain = some op) :
    ∃ e rest, s.posted.entries = e :: rest ∧ op = .write e.word e.mask e.data := by
  simp only [State.nextOp] at asks
  split at asks
  · cases asks
  · next e rest entries =>
    split at asks
    · cases asks
    · cases asks
      exact ⟨e, rest, entries, rfl⟩

/-- The drain notes its grant in the head entry (R97). -/
theorem State.noteGrant_drain {s : State} {e : PostedEntry} {rest : List PostedEntry}
    (entries : s.posted.entries = e :: rest) :
    s.noteGrant .drain = { s with posted := { s.posted with entries := { e with writing := true } :: rest } } := by
  simp only [State.noteGrant, entries]

/-! ### What the requesters ask for -/

/-- An entry found at a list position stands there. -/
theorem State.entryAt_some {s : State} {k : SlotId} {n : Nat} {e : StagingEntry} (h : s.entryAt k n = some e) :
    ∃ i : Fin 96, s.pool[i] = some e ∧ e.slot = k ∧ e.position = n := by
  rw [State.entryAt_eq] at h
  obtain ⟨i, _, hi⟩ := List.exists_of_findSome?_eq_some h
  exact ⟨i, entryIs_eq_some.1 hi⟩

/-- The one entry at a list position is found. -/
theorem State.entryAt_of_unique {s : State} {k : SlotId} {n : Nat} {i : Fin 96} {e : StagingEntry}
    (he : s.pool[i] = some e) (slot : e.slot = k) (position : e.position = n)
    (unique : ∀ j : Fin 96, ∀ x : StagingEntry, s.pool[j] = some x → x.slot = k → x.position = n → j = i) :
    s.entryAt k n = some e := by
  cases found : s.entryAt k n with
  | none =>
    rw [State.entryAt_eq, List.findSome?_eq_none_iff] at found
    have missed := found i (List.mem_finRange i)
    rw [entryIs_eq_some.2 ⟨he, slot, position⟩] at missed
    cases missed
  | some x =>
    obtain ⟨j, hx, xslot, xposition⟩ := State.entryAt_some found
    rw [unique j x hx xslot xposition, he] at hx
    exact hx.symm

theorem State.applyWrite_of_home {s : State} {k : SlotId} {n : Nat} (applying : s.apply.applying = some (k, .home))
    (cursor : (s.slot k).cursor = some n) :
    s.applyWrite = (s.entryAt k n).map fun e => .write e.word e.mask e.data := by
  simp only [State.applyWrite, applying, cursor, Option.getD_some]

theorem State.applyWrite_of_retire {s : State} {k : SlotId} (applying : s.apply.applying = some (k, .retire)) :
    s.applyWrite = some (.write (s.ring.wordAt ((s.slot k).position.getD 0)) allLanes
      (headerWord retiredByte (s.slotLen k))) := by
  simp only [State.applyWrite, applying]

theorem State.ring_of_region {s : State} {r : Region} (region : s.region = some r) : s.ring = r := by
  rw [State.ring, region, Option.getD_some]

/-- Settles O32: who is granted, then what each requester asks for. -/
theorem grantGoesRound : Obligations.GrantGoesRound := by
  refine ⟨fun s => ⟨fun shut => ?_, fun up active idle calm => ⟨fun recovering => ?_, fun notRecovering =>
    ⟨fun none_ => State.grant_of_idle notRecovering none_, ?_⟩⟩⟩, fun s => ⟨?_, ?_, ?_, ?_, ?_, ?_, ?_, ?_, ?_, ?_, ?_, ?_,
      ?_⟩⟩
  · refine s.grant_of_not_mayGrant (Bool.eq_false_iff.2 fun may => ?_)
    obtain ⟨up, active, idle, calm⟩ := s.mayGrant_iff.1 may
    obtain h | h | h | h := shut
    · exact h up
    · exact h active
    · exact h idle
    · rw [calm] at h; cases h
  · refine (State.grant_of_scanner (s.mayGrant_iff.2 ⟨up, active, idle, calm⟩) recovering).trans ?_
    cases s.scannerOp <;> rfl
  · intro before after r op order first asks
    have granted := State.grant_of_first (s.mayGrant_iff.2 ⟨up, active, idle, calm⟩) notRecovering
      (State.nextGrant_of_first order first asks)
    cases r with
    | read => exact ⟨_, granted, rfl, rfl, fun _ => rfl, nofun⟩
    | drain =>
      obtain ⟨e, rest, entries, rfl⟩ := State.nextOp_drain_some asks
      exact ⟨_, granted.trans (State.noteGrant_drain entries), rfl, rfl, fun other => absurd rfl other,
        fun _ => ⟨e, rest, entries, rfl, rfl⟩⟩
    | sealer => exact ⟨_, granted, rfl, rfl, fun _ => rfl, nofun⟩
    | apply => exact ⟨_, granted, rfl, rfl, fun _ => rfl, nofun⟩
  · intro h held
    simp only [State.nextOp, held]
  · intro held
    simp only [State.nextOp, held]
  · intro e rest entries waiting
    have none_ : ((e :: rest).any PostedEntry.writing) = false :=
      List.any_eq_false.2 fun x hx => by rw [waiting x (entries ▸ hx)]; decide
    simp only [State.nextOp, entries, none_, Bool.false_eq_true, if_false]
  · rintro (empty | ⟨x, hx, writing⟩)
    · simp only [State.nextOp, empty]
    · cases entries : s.posted.entries with
      | nil => simp only [State.nextOp, entries]
      | cons e rest =>
        have some_ : ((e :: rest).any PostedEntry.writing) = true := List.any_eq_true.2 ⟨x, entries ▸ hx, writing⟩
        simp only [State.nextOp, entries, some_, if_true]
  · intro a w rest writes
    simp only [State.nextOp, writes]
    rfl
  · intro none_
    simp only [State.nextOp, none_]
  · intro idle
    simp only [State.nextOp, State.applyWrite, idle]
  · intro k n applying cursor
    refine ⟨fun i e he slot position unique => ?_, fun op asks => ?_⟩
    · exact (State.applyWrite_of_home applying cursor).trans
        (by rw [State.entryAt_of_unique he slot position unique]; rfl)
    · obtain ⟨e, found, rfl⟩ := Option.map_eq_some_iff.1 ((State.applyWrite_of_home applying cursor).symm.trans asks)
      obtain ⟨i, he, slot, position⟩ := State.entryAt_some found
      exact ⟨i, e, he, slot, position, rfl⟩
  · intro k r p applying region position
    refine (State.applyWrite_of_retire applying).trans ?_
    rw [State.ring_of_region region, position]
    rfl
  · intro idle
    simp only [State.scannerOp, idle]
  · intro r region scanning
    simp only [State.scannerOp, scanning, State.ring_of_region region]
    rfl
  · intro a d rest replaying
    simp only [State.scannerOp, replaying]
    rfl
  · intro r c region replaying chosen
    simp only [State.scannerOp, replaying, chosen, State.ring_of_region region]
    rfl

/-! ### What follows a completion -/

theorem State.quiesceIfWarned_of_calm {s : State} (h : s.mp.warning = false ∨ s.mp.inFlight ≠ none) :
    s.quiesceIfWarned = s := by
  refine if_neg fun ⟨warning, landed⟩ => h.elim (fun calm => ?_) (· landed)
  rw [calm] at warning
  cases warning

theorem State.enterQuiesced_of_kept {s : State} (h : s.held = none ∨ ∃ h, s.held = some h ∧ h.granted = true) :
    s.enterQuiesced = { s with mp := { s.mp with port := .quiesced, warning := false } } := by
  obtain held | ⟨h, held, granted⟩ := h
  · simp only [State.enterQuiesced, held]
  · simp only [State.enterQuiesced, held, granted, if_true]

theorem State.enterQuiesced_of_withdrawn {s : State} {h : HeldRead} (held : s.held = some h)
    (waiting : h.granted = false) :
    s.enterQuiesced = { s with mp := { s.mp with port := .quiesced, warning := false }, held := none,
                               bus := .answer h.source .retry } := by
  simp only [State.enterQuiesced, held, waiting, Bool.false_eq_true, if_false]
  rfl

/-- A QUIESCED port grants nothing. -/
theorem State.grant_of_quiesced {s : State} (quiesced : s.mp.port = .quiesced) : s.grant = s :=
  s.grant_of_not_mayGrant (Bool.eq_false_iff.2 fun may => by
    have active := (s.mayGrant_iff.1 may).2.1
    rw [quiesced] at active
    cases active)

/-- Settles O33: the finding by its conditions, then the quiesce by the warning, then the grant of a port that is not
QUIESCED. -/
theorem settleAfterACompletion : Obligations.SettleAfterACompletion := by
  intro s
  refine ⟨fun k rest queue => ⟨fun ready full fresh => ?_, fun no => ?_⟩, fun empty => ?_, ?_⟩
  · have finds : (s.sealReadyButSpace k && !s.spaceReady k && !s.journal.ringWait) = true := by
      rw [ready, full, fresh]; rfl
    simp only [State.noteRingWait, queue, finds, if_true]
  · have finds : (s.sealReadyButSpace k && !s.spaceReady k && !s.journal.ringWait) = false := by
      obtain h | h | h := no <;> simp [h]
    simp only [State.noteRingWait, queue, finds, Bool.false_eq_true, if_false]
  · simp only [State.noteRingWait, empty]
  · intro followed
    have mp : followed.mp = s.mp := by simp [followed]
    have held : followed.held = s.held := by simp [followed]
    refine ⟨fun calm => ?_, fun warning flying => ?_, fun warning landed => ⟨fun kept => ?_, fun h held' waiting => ?_⟩⟩
    · exact congrArg State.grant (State.quiesceIfWarned_of_calm (s := followed) (.inl (by rw [mp]; exact calm)))
    · have quiesced := State.quiesceIfWarned_of_calm (s := followed) (.inr (by rw [mp]; exact flying))
      refine (congrArg State.grant quiesced).trans (followed.grant_of_not_mayGrant ?_)
      rw [State.mayGrant, mp, warning]
      simp
    · have enters : followed.quiesceIfWarned = followed.enterQuiesced := if_pos (by rw [mp]; exact ⟨warning, landed⟩)
      rw [← held] at kept
      refine (congrArg State.grant (enters.trans (State.enterQuiesced_of_kept kept))).trans ?_
      rw [State.grant_of_quiesced rfl, mp]
    · have enters : followed.quiesceIfWarned = followed.enterQuiesced := if_pos (by rw [mp]; exact ⟨warning, landed⟩)
      rw [← held] at held'
      refine (congrArg State.grant (enters.trans (State.enterQuiesced_of_withdrawn held' waiting))).trans ?_
      rw [State.grant_of_quiesced rfl, mp]

/-! ### The power-fail warning -/

theorem exec_pfailAsserted_of_up {s : State} (up : s.power = .up) :
    exec .pfailAsserted s = .next ((s.quiet.setPfail true).setFlag .powerWarn).warn :=
  congrArg Host.Outcome.next (if_pos up)

theorem exec_pfailDeasserted_of_active {s : State} (up : s.power = .up) (active : s.mp.port = .active) :
    exec .pfailDeasserted s = .next
      { s.quiet.setPfail false with mp := { s.mp with warning := false } } := by
  refine congrArg Host.Outcome.next ((if_pos up).trans ?_)
  simp only [State.setPfail_mp, State.quiet_mp, active]

theorem exec_pfailDeasserted_of_quiesced {s : State} (up : s.power = .up) (quiesced : s.mp.port = .quiesced) :
    exec .pfailDeasserted s = .next
      (State.settle { s.quiet.setPfail false with mp := { s.mp with port := .active } }) := by
  refine congrArg Host.Outcome.next ((if_pos up).trans ?_)
  simp only [State.setPfail_mp, State.quiet_mp, quiesced]

theorem State.warn_of_idle {s : State} (active : s.mp.port = .active) (calm : s.mp.warning = false)
    (landed : s.mp.inFlight = none) : s.warn = s.enterQuiesced := by
  have fresh : ¬ (s.mp.port = .quiesced ∨ s.mp.warning = true) := by rw [active, calm]; decide
  simp only [State.warn, fresh, if_false, landed]

theorem State.warn_of_quiesced {s : State} (quiesced : s.mp.port = .quiesced) : s.warn = s := if_pos (.inl quiesced)

/-- A warning that meets an operation in flight is pending, as it may be already (R151). -/
theorem State.warn_of_flying {s : State} (active : s.mp.port = .active) (flying : s.mp.inFlight ≠ none) :
    s.warn = { s with mp := { s.mp with warning := true } } := by
  obtain ⟨op, flying⟩ := Option.ne_none_iff_exists'.1 flying
  cases pending : s.mp.warning with
  | true =>
    have no : s.warn = s := if_pos (.inr pending)
    rw [no, ← pending]
  | false =>
    have fresh : ¬ (s.mp.port = .quiesced ∨ s.mp.warning = true) := by rw [active, pending]; decide
    simp only [State.warn, fresh, if_false, flying]

/-- Settles O34: the warning by the port and what is in flight. -/
theorem powerFailWarning : Obligations.PowerFailWarning := by
  intro s up s'
  have warned : exec .pfailAsserted s = .next s'.warn := exec_pfailAsserted_of_up up
  have port : s.mp.warning = false →
      ({ s'.mp with port := .quiesced, warning := false } : MemoryPort) = { s.mp with port := .quiesced } := fun calm => by
    rw [← calm]
    rfl
  refine ⟨fun active calm landed held => ?_, fun h active calm landed held waiting => ?_, fun active flying => ?_,
    fun quiesced => ?_, fun active => ?_, fun quiesced => ?_⟩
  · rw [warned, State.warn_of_idle (s := s') active calm landed, State.enterQuiesced_of_kept (s := s') (.inl held),
      port calm]
  · rw [warned, State.warn_of_idle (s := s') active calm landed,
      State.enterQuiesced_of_withdrawn (s := s') held waiting, port calm]
  · exact warned.trans (congrArg Host.Outcome.next (State.warn_of_flying (s := s') active flying))
  · exact warned.trans (congrArg Host.Outcome.next (State.warn_of_quiesced (s := s') quiesced))
  · exact exec_pfailDeasserted_of_active up active
  · exact exec_pfailDeasserted_of_quiesced up quiesced

end Sys2Proof.Machine
end

section
/-! SUPPORT. The engines: the drain of the head entry, the seal and its commit point, apply and retirement, the ring. -/

namespace Sys2Proof.Machine

/-! ### Wait sets and barrier points -/

/-- A FLUSH wait set that waits keeps the members that stay, and is READY when none is left (R81). -/
theorem Completion.keepMembers_of_flush (keepStamp : Stamp → Bool) (keepSlot : SlotId → Bool) (stamps : List Stamp)
    (slots : List SlotId) :
    Completion.keepMembers keepStamp keepSlot { notice := .flush stamps slots, status := .waiting } =
      { notice := .flush (stamps.filter keepStamp) (slots.filter keepSlot),
        status := if stamps.filter keepStamp = [] ∧ slots.filter keepSlot = [] then .ready 0 else .waiting } := rfl

/-- Every other completion record stays. -/
theorem Completion.keepMembers_of_other {keepStamp : Stamp → Bool} {keepSlot : SlotId → Bool} {c : Completion}
    (other : ∀ stamps slots, c ≠ { notice := .flush stamps slots, status := .waiting }) :
    c.keepMembers keepStamp keepSlot = c := by
  obtain ⟨notice, status⟩ := c
  cases notice with
  | commit k => rfl
  | flush stamps slots =>
    cases status with
    | waiting => exact absurd rfl (other stamps slots)
    | ready n => rfl

theorem Completion.map_keepMembers_of_other {keepStamp : Stamp → Bool} {keepSlot : SlotId → Bool}
    {c : Option Completion} (other : ∀ stamps slots, c ≠ some { notice := .flush stamps slots, status := .waiting }) :
    c.map (Completion.keepMembers keepStamp keepSlot) = c := by
  cases c with
  | none => rfl
  | some c =>
    exact congrArg some (Completion.keepMembers_of_other fun stamps slots h => other stamps slots (congrArg some h))

/-- What leaves the wait sets changes completion records alone. -/
theorem State.leaveWaitSets_source (s : State) (keepStamp : Stamp → Bool) (keepSlot : SlotId → Bool) (i : Source) :
    (s.leaveWaitSets keepStamp keepSlot).source i = { s.source i with
      completion := (s.source i).completion.map (Completion.keepMembers keepStamp keepSlot) } :=
  s.mapSources_source _ i

theorem filter_ne_eq_nil_iff {α : Type} [DecidableEq α] (l : List α) (a : α) :
    (l.filter fun x => decide (x ≠ a)) = [] ↔ ∀ x ∈ l, x = a := by
  simp [List.filter_eq_nil_iff]

/-- A barrier point that names the stamp is met (R103). -/
theorem Barrier.meet_eq (stamp : Stamp) : Barrier.meet stamp = fun b => if b = .entry stamp then .met else b := by
  funext b
  cases b with
  | met => simp [Barrier.meet]
  | entry x => simp only [Barrier.meet, Barrier.entry.injEq]

/-! ### Drain -/

theorem State.removeHead_of_cons {s : State} {e : PostedEntry} {rest : List PostedEntry}
    (entries : s.posted.entries = e :: rest) :
    s.removeHead = State.leaveWaitSets { s with posted := { s.posted with
        entries := rest,
        barriers := Vector.ofFn fun k => s.posted.barriers[k].map (Barrier.meet e.stamp) } }
      (fun x => decide (x ≠ e.stamp)) (fun _ => true) := by
  simp only [State.removeHead, entries]

theorem State.inFlightOf_of_flying {s : State} {r : Requester} {op : WordOp}
    (flying : s.mp.inFlight = some { requester := r, op }) : s.inFlightOf r = true := by
  simp only [State.inFlightOf, flying, decide_true]

/-- A write of this requester has completed: its bytes are in the RAM (R146). -/
def State.written (s : State) (word : Addr) (mask : Mask) (data : Word) : State :=
  { s.quiet.landed with mem := s.mem.writeWord word mask data }

theorem State.completeOp_quiet {s : State} {r : Requester} {word : Addr} {mask : Mask} {data : Word}
    (flying : s.mp.inFlight = some { requester := r, op := .write word mask data }) :
    s.quiet.completeOp = s.written word mask data :=
  State.completeOp_of_write (s := s.quiet) flying

/-- Settles O36: the head entry leaves, and with it its stamp leaves wait sets and barrier points. -/
theorem drainRemovesTheHead : Obligations.DrainRemovesTheHead := by
  intro s e rest word mask data entries flying
  have ran : exec .drainWriteCompletion s = .next (s.written word mask data).removeHead.settle := by
    have flies : s.quiet.inFlightOf (.rotor .drain) = true := State.inFlightOf_of_flying flying
    rw [← State.completeOp_quiet flying]
    exact congrArg Host.Outcome.next (if_pos flies)
  refine ⟨_, ran, ?_⟩
  rw [State.removeHead_of_cons (s := s.written word mask data) entries]
  refine ⟨rfl, fun k => ?_, fun i => ?_⟩
  · simp [State.leaveWaitSets, State.mapSources, State.written, State.landed, Barrier.meet_eq]
  · rw [State.leaveWaitSets_source]
    refine ⟨rfl, fun stamps slots flush => ?_, fun other => ?_⟩
    · refine (congrArg (Option.map (Completion.keepMembers _ _)) flush).trans ?_
      simp only [Option.map_some, Completion.keepMembers_of_flush, List.filter_true, filter_ne_eq_nil_iff]
    · exact Completion.map_keepMembers_of_other other

/-! ### The ring -/

/-- Less than twice the ring is at most once round it. -/
theorem mod_of_lt_twice {a n : Nat} (h : a < 2 * n) : a % n = if a < n then a else a - n := by
  split
  · next lt => exact Nat.mod_eq_of_lt lt
  · next le =>
    rw [Nat.mod_eq_sub_mod (Nat.not_lt.1 le)]
    exact Nat.mod_eq_of_lt (by omega)

/-- The relation of R110, without a remainder. -/
theorem ring_relation_iff {head tail fill size : Nat} (tailLt : tail < size) (fillLe : fill ≤ size) :
    head = (tail + fill) % size ↔ head = if tail + fill < size then tail + fill else tail + fill - size := by
  rw [mod_of_lt_twice (by omega)]

/-- Settles O41: a placement and a release move head, tail and fill round the ring by the same bytes. -/
theorem ringRelationIsKept : Obligations.RingRelationIsKept := by
  intro j r pos headLt tailLt fillLe relation
  rw [ring_relation_iff tailLt fillLe] at relation
  constructor
  · intro size sizePos space p
    have placed : p.fill ≤ r.size ∧ p.head < r.size ∧ p.tail < r.size ∧ 0 < p.fill ∧
        p.head = if p.tail + p.fill < r.size then p.tail + p.fill else p.tail + p.fill - r.size := by
      simp only [p, Journal.place]
      split
      · next inPlace =>
        rw [if_neg (Nat.not_lt.2 inPlace)] at space
        dsimp only
        split <;> split at relation <;> split <;> omega
      · next behindPad =>
        rw [if_pos (Nat.not_le.1 behindPad)] at space
        split
        · dsimp only
          split <;> omega
        · dsimp only
          split at relation <;> split <;> omega
    obtain ⟨fill, head, tail, some_, rel⟩ := placed
    exact ⟨(ring_relation_iff tail fill).2 rel, fill, head, tail, some_⟩
  · intro size oldest sizePos fits inside pad q
    have released : q.fill < j.fill ∧ q.tail < r.size ∧
        q.head = if q.tail + q.fill < r.size then q.tail + q.fill else q.tail + q.fill - r.size := by
      simp only [q, Journal.release]
      by_cases wraps : j.tail + size = r.size
      · rw [if_pos wraps, if_neg (by simp)]
        dsimp only
        split at relation <;> split <;> omega
      · rw [if_neg wraps]
        split
        · next padded =>
          have padFits := pad padded.1 (by omega) padded.2.2
          dsimp only
          split at relation <;> split <;> omega
        · dsimp only
          split at relation <;> split <;> omega
    obtain ⟨fill, tail, rel⟩ := released
    exact ⟨(ring_relation_iff tail (fill.le.trans fillLe)).2 rel, fill, tail⟩

/-! ### The beginning of a seal -/

theorem State.sealingSlot_isNone_iff (s : State) : s.sealingSlot = none ↔ ∀ k, (s.slot k).state ≠ .sealing := by
  simp only [State.sealingSlot, List.find?_eq_none, decide_eq_true_eq]
  exact ⟨fun h k => h k (mem_allSlots k), fun h k _ => h k⟩

/-- The conditions of R121 for the head slot, with those of R117 and R122 spelled out. -/
theorem State.sealConditions_iff {s : State} {r : Region} (region : s.region = some r) (k : SlotId) :
    s.sealConditions k = true ↔
      s.power = .up ∧ (∀ j, (s.slot j).state ≠ .sealing) ∧ (s.op = .running ∨ s.op = .reloading) ∧
      s.mp.port = .active ∧ s.posted.barriers[k] = some .met ∧
      (s.journal.seqCounter ≠ 4294967295 ∨ s.apply.queue = [] ∧ s.apply.applying = none) ∧
      s.journal.fill + s.padBytes r (placementSize (s.slotLen k)) + placementSize (s.slotLen k) ≤ r.size := by
  have highest : BitVec.allOnes 32 = 4294967295#32 := rfl
  simp only [State.sealConditions, State.sealReadyButSpace, State.sequenceReady, State.spaceReady, region, highest,
    Bool.and_eq_true, Bool.or_eq_true, decide_eq_true_eq, Option.isNone_iff_eq_none, State.sealingSlot_isNone_iff,
    and_assoc]
  rfl

theorem exec_beginningOfSeal {s : State} {r : Region} {k : SlotId} {rest : List SlotId}
    (head : s.journal.commitQueue = k :: rest) (region : s.region = some r) :
    exec .beginningOfSeal s =
      .next (if s.quiet.sealConditions k then (s.quiet.beginSeal r k rest).grant else s.quiet) := by
  simp only [exec, execBeginningOfSeal, State.quiet_journal, State.quiet_region, head, region]

/-- With no group waiting, or no journal region, nothing begins. -/
theorem exec_beginningOfSeal_of_nothing {s : State} (nothing : s.journal.commitQueue = [] ∨ s.region = none) :
    exec .beginningOfSeal s = .next s.quiet := by
  refine congrArg Host.Outcome.next ?_
  split
  · next k rest r head region =>
    obtain empty | noRegion := nothing
    · rw [State.quiet_journal, empty] at head
      cases head
    · rw [State.quiet_region, noRegion] at region
      cases region
  · rfl

/-- The state after the beginning of a seal, its record at this position (R116, R123). -/
def State.begun (s : State) (r : Region) (k : SlotId) (rest : List SlotId) (position : Nat)
    (writes : List (Addr × Word)) : State :=
  { s with
    slots := s.slots.set k { s.slot k with
      state := .sealing, seqNo := some s.nextSeqNo, position := some position,
      recordSize := some (placementSize (s.slotLen k)) }
    journal := { s.journal.place r (placementSize (s.slotLen k)) with
      seqCounter := s.nextSeqNo + 1, commitQueue := rest, ringWait := false, sealWrites := writes }
    posted := { s.posted with barriers := s.posted.barriers.set k none } }

theorem State.beginSeal_of_fits {s : State} {r : Region} {k : SlotId} (rest : List SlotId)
    (fits : placementSize (s.slotLen k) ≤ r.size - s.journal.head) :
    s.beginSeal r k rest = s.begun r k rest s.journal.head
      (wordsAt r s.journal.head (s.recordWords k s.nextSeqNo)) := by
  simp only [State.beginSeal, fits, if_true, List.nil_append]
  rfl

theorem State.beginSeal_of_pad {s : State} {r : Region} {k : SlotId} (rest : List SlotId)
    (behindPad : r.size - s.journal.head < placementSize (s.slotLen k)) :
    s.beginSeal r k rest = s.begun r k rest 0
      ((r.wordAt s.journal.head, headerWord padByte ((r.size - s.journal.head) / 16)) ::
        wordsAt r 0 (s.recordWords k s.nextSeqNo)) := by
  simp only [State.beginSeal, Nat.not_le.2 behindPad, if_false, List.singleton_append]
  rfl

theorem Journal.place_of_fits {j : Journal} {r : Region} {size : Nat} (fits : size ≤ r.size - j.head) :
    j.place r size =
      { j with head := if j.head + size = r.size then 0 else j.head + size, fill := j.fill + size } :=
  if_pos fits

theorem Journal.place_of_pad {j : Journal} {r : Region} {size : Nat} (behindPad : r.size - j.head < size) :
    j.place r size =
      { j with head := size, tail := if j.fill = 0 then 0 else j.tail,
               fill := if j.fill = 0 then size else j.fill + (r.size - j.head) + size } := by
  refine (if_neg (Nat.not_le.2 behindPad)).trans ?_
  split <;> rfl

/-- Settles O37: under the conditions of R121 the record is placed, with a pad before it or not; without them nothing
begins. -/
theorem sealBegins : Obligations.SealBegins := by
  constructor
  · intro s k rest r head region up op active idle met sequence size left seqNo begun
    have due : s.quiet.padBytes r size + s.journal.fill + size ≤ r.size → s.quiet.sealConditions k = true := fun space =>
      (State.sealConditions_iff (s := s.quiet) region k).2
        ⟨up, idle, op, active, met, sequence, by rw [Nat.add_comm s.quiet.journal.fill]; exact space⟩
    refine ⟨fun fits space => ?_, fun behindPad space => ?_⟩
    · have noPad : s.quiet.padBytes r size = 0 := if_neg (Nat.not_lt.2 fits)
      rw [exec_beginningOfSeal head region, if_pos (due (by omega)), State.beginSeal_of_fits (s := s.quiet) rest fits,
        State.begun, Journal.place_of_fits (j := s.quiet.journal) (size := placementSize (s.quiet.slotLen k)) fits]
      rfl
    · have pad : s.quiet.padBytes r size = left := if_pos behindPad
      rw [exec_beginningOfSeal head region, if_pos (due (by omega)), State.beginSeal_of_pad (s := s.quiet) rest behindPad,
        State.begun, Journal.place_of_pad (j := s.quiet.journal) (size := placementSize (s.quiet.slotLen k)) behindPad]
      rfl
  · intro s
    refine ⟨fun nothing => ?_, ?_⟩
    · exact exec_beginningOfSeal_of_nothing nothing
    · intro k rest r head region size left no
      rw [exec_beginningOfSeal head region, if_neg]
      · rfl
      · rw [State.sealConditions_iff (s := s.quiet) region k]
        rintro ⟨up, idle, op, active, met, sequence, space⟩
        have pad : s.quiet.padBytes r size = if left < size then left else 0 := rfl
        have space' : s.journal.fill + (if left < size then left else 0) + size ≤ r.size := pad ▸ space
        obtain h | ⟨h, h'⟩ | h | ⟨j, h⟩ | h | ⟨h, h'⟩ | ⟨h, h'⟩ | ⟨h, h'⟩ := no
        · exact h up
        · exact op.elim h h'
        · rw [show s.mp.port = .active from active] at h; cases h
        · exact idle j h
        · exact h met
        · obtain queue | ⟨queue, applying⟩ := sequence
          · exact queue h
          · exact h'.elim (· queue) (· applying)
        · rw [if_neg (Nat.not_lt.2 h)] at space'
          omega
        · rw [if_pos h] at space'
          omega

/-! ### The commit point -/

/-- The owner's COMMIT notice becomes READY exactly when it waits for the slot (R79). -/
theorem Completion.commitPoint_eq (k : SlotId) : Completion.commitPoint k = fun c =>
    if c = { notice := .commit k, status := .waiting } then { c with status := .ready 0 } else c := by
  funext c
  obtain ⟨notice, status⟩ := c
  cases notice with
  | flush stamps slots => simp [Completion.commitPoint]
  | commit j =>
    cases status with
    | ready n => simp [Completion.commitPoint]
    | waiting => simp [Completion.commitPoint]

theorem State.sealingSlot_of_unique {s : State} {k : SlotId} (state : (s.slot k).state = .sealing)
    (unique : ∀ j, (s.slot j).state = .sealing → j = k) : s.sealingSlot = some k := by
  cases found : s.sealingSlot with
  | none => exact absurd state (s.sealingSlot_none found k)
  | some j => rw [unique j (s.sealingSlot_some found)]

/-- A word of the seal that is not the last has been written (R124). -/
theorem State.sealWordWritten_of_more {s : State} {aw : Addr × Word} {rest : List (Addr × Word)}
    (writes : s.journal.sealWrites = aw :: rest) (more : rest ≠ []) :
    s.sealWordWritten = { s with journal := { s.journal with sealWrites := rest } } := by
  obtain ⟨b, rest', rfl⟩ := List.exists_cons_of_ne_nil more
  simp only [State.sealWordWritten, writes, List.drop_one, List.tail_cons]

/-- The last word of the seal has been written (R126). -/
theorem State.sealWordWritten_of_last {s : State} {aw : Addr × Word} {k : SlotId}
    (writes : s.journal.sealWrites = [aw]) (sealing : s.sealingSlot = some k) :
    s.sealWordWritten = ({ s with journal := { s.journal with sealWrites := [] } } : State).commitPoint k := by
  have sealing' : ({ s with journal := { s.journal with sealWrites := [] } } : State).sealingSlot = some k := sealing
  simp only [State.sealWordWritten, writes, List.drop_one, List.tail_cons, sealing']

/-- The group at its commit point: its slot's state and cursor, and the Apply Engine, to be said (R79, R126). -/
def State.committedAt (s : State) (k : SlotId) (owner : Source) (n : Word) (state : SlotState) (cursor : Option Nat)
    (apply : Apply) : State :=
  { (s.count .sealedGroups).setSource owner { s.source owner with
      completion := (s.source owner).completion.map (Completion.commitPoint k) } with
    slots := s.slots.set k { s.slot k with state, cursor }, apply,
    ml := { (s.count .sealedGroups).ml with lastEnd := some { slot := k, source := owner, outcome := .sealed n } } }

theorem State.takeApplyHead_of_head {s : State} {k : SlotId} {rest : List SlotId}
    (idle : s.apply = { queue := k :: rest, applying := none }) :
    s.takeApplyHead = s.applySlot k rest := by
  obtain ⟨queue, applying⟩ := Apply.mk.inj idle
  simp only [State.takeApplyHead, queue, applying]
  rfl

theorem State.takeApplyHead_of_busy {s : State} {p : SlotId × Phase} (busy : s.apply.applying = some p) :
    s.takeApplyHead = s := by
  simp only [State.takeApplyHead, busy]

theorem State.takeApplyHead_of_empty {s : State} (empty : s.apply.queue = []) : s.takeApplyHead = s := by
  cases applying : s.apply.applying <;> simp only [State.takeApplyHead, applying, empty]

/-- A slot written twice holds what was written last. -/
theorem State.setSlot_setSlot (s : State) (k : SlotId) (x y : Slot) : (s.setSlot k x).setSlot k y = s.setSlot k y := by
  simp [State.setSlot]

/-- Before the Apply Engine looks, the group is SEALED at the tail of its queue (R126, R131). -/
theorem State.commitPoint_eq {s : State} {k : SlotId} {owner : Source} {n : Word} (owned : (s.slot k).owner = some owner)
    (numbered : (s.slot k).seqNo = some n) :
    s.commitPoint k = (s.committedAt k owner n .sealed (s.slot k).cursor
      { s.apply with queue := s.apply.queue ++ [k] }).takeApplyHead := by
  have owner' : (s.slot k).owner.getD 0 = owner := by rw [owned]; rfl
  have number : (s.slot k).seqNo.getD 0 = n := by rw [numbered]; rfl
  unfold State.commitPoint
  dsimp only
  rw [owner', number]
  rfl

theorem State.commitPoint_of_idle {s : State} {k : SlotId} {owner : Source} {n : Word}
    (owned : (s.slot k).owner = some owner) (numbered : (s.slot k).seqNo = some n)
    (idle : s.apply = { queue := [], applying := none }) :
    s.commitPoint k = s.committedAt k owner n .applying (some 0) { queue := [], applying := some (k, .home) } := by
  have head : (s.committedAt k owner n .sealed (s.slot k).cursor { s.apply with queue := s.apply.queue ++ [k] }).apply =
      { queue := [k], applying := none } := by
    rw [State.committedAt, idle]
    rfl
  have slot : (s.committedAt k owner n .sealed (s.slot k).cursor { s.apply with queue := s.apply.queue ++ [k] }).slot k =
      { s.slot k with state := .sealed } := s.setSlot_slot_self k _
  rw [State.commitPoint_eq owned numbered, State.takeApplyHead_of_head head, State.applySlot, slot]
  have slots : (s.slots.set k { s.slot k with state := .sealed }).set k
      { s.slot k with state := .applying, cursor := some 0 } =
        s.slots.set k { s.slot k with state := .applying, cursor := some 0 } :=
    congrArg State.slots (s.setSlot_setSlot k _ _)
  unfold State.committedAt
  rw [← slots]
  rfl

theorem State.commitPoint_of_busy {s : State} {k : SlotId} {owner : Source} {n : Word} {p : SlotId × Phase}
    (owned : (s.slot k).owner = some owner) (numbered : (s.slot k).seqNo = some n) (busy : s.apply.applying = some p) :
    s.commitPoint k = s.committedAt k owner n .sealed (s.slot k).cursor
      { queue := s.apply.queue ++ [k], applying := some p } := by
  rw [State.commitPoint_eq owned numbered, State.takeApplyHead_of_busy (s := s.committedAt k owner n .sealed (s.slot k).cursor
    { s.apply with queue := s.apply.queue ++ [k] }) busy, ← busy]

/-- Settles O39: a word is written; the last one is the commit point, with the Apply Engine idle or busy. -/
theorem sealWordsAndTheCommitPoint : Obligations.SealWordsAndTheCommitPoint := by
  intro s a word w data mask rest flying writes written
  have ran : exec .sealWriteCompletion s = .next (s.written word mask data).sealWordWritten.settle := by
    have flies : s.quiet.inFlightOf (.rotor .sealer) = true := State.inFlightOf_of_flying flying
    rw [← State.completeOp_quiet flying]
    exact congrArg Host.Outcome.next (if_pos flies)
  refine ⟨fun more => ?_, ?_⟩
  · rw [ran, State.sealWordWritten_of_more (s := s.written word mask data) writes more]
    rfl
  · intro k owner n last state unique owned numbered committed
    subst last
    have sealing : (s.written word mask data).sealingSlot = some k :=
      State.sealingSlot_of_unique (s := s.written word mask data) state unique
    have point : exec .sealWriteCompletion s = .next (written.commitPoint k).settle := by
      rw [ran, State.sealWordWritten_of_last (s := s.written word mask data) writes sealing]
      rfl
    refine ⟨fun idle => ?_, fun p busy => ?_⟩
    · rw [point, State.commitPoint_of_idle (s := written) owned numbered idle, State.committedAt,
        Completion.commitPoint_eq]
      rfl
    · rw [point, State.commitPoint_of_busy (s := written) owned numbered busy, State.committedAt,
        Completion.commitPoint_eq]
      rfl

/-! ### Apply and retirement -/

theorem State.homeWritten_of_more {s : State} {k : SlotId} {n : Nat} (cursor : (s.slot k).cursor = some n)
    (more : n + 1 < s.slotLen k) :
    s.homeWritten k = { s with slots := s.slots.set k { s.slot k with cursor := some (n + 1) } } := by
  simp only [State.homeWritten, cursor, Option.getD_some, more, if_true]
  rfl

theorem State.homeWritten_of_last {s : State} {k : SlotId} {n : Nat} (cursor : (s.slot k).cursor = some n)
    (last : s.slotLen k ≤ n + 1) :
    s.homeWritten k = { s with apply := { s.apply with applying := some (k, .retire) } } := by
  simp only [State.homeWritten, cursor, Option.getD_some, Nat.not_lt.2 last, if_false]

theorem exec_homeWriteCompletion {s : State} {k : SlotId} {word : Addr} {mask : Mask} {data : Word}
    (applying : s.apply.applying = some (k, .home))
    (flying : s.mp.inFlight = some { requester := .rotor .apply, op := .write word mask data }) :
    exec .homeWriteCompletion s = .next ((s.written word mask data).homeWritten k).settle := by
  have flies : s.quiet.inFlightOf (.rotor .apply) = true := State.inFlightOf_of_flying flying
  simp only [exec, execHomeWriteCompletion, State.quiet_apply, applying, flies, if_true, State.completeOp_quiet flying]

theorem exec_retirement {s : State} {k : SlotId} {word : Addr} {mask : Mask} {data : Word}
    (applying : s.apply.applying = some (k, .retire))
    (flying : s.mp.inFlight = some { requester := .rotor .apply, op := .write word mask data }) :
    exec .retirement s = .next ((s.written word mask data).retire k).settle := by
  have flies : s.quiet.inFlightOf (.rotor .apply) = true := State.inFlightOf_of_flying flying
  simp only [exec, execRetirement, State.quiet_apply, applying, flies, if_true, State.completeOp_quiet flying]

theorem State.oldestAfter_eq (s : State) : s.oldestAfter =
    match s.apply.queue with
    | j :: _ => (s.slot j).position
    | [] => s.sealingSlot.bind fun j => (s.slot j).position := by
  unfold State.oldestAfter
  cases s.apply.queue <;> rfl

/-- The ring after the retirement of slot `k`'s record (R136). -/
def State.released (s : State) (k : SlotId) : Journal :=
  s.journal.release s.ring ((s.slot k).position.getD 0) ((s.slot k).recordSize.getD 0) s.oldestAfter

/-- The retired slot is free, its record released, and FLUSH wait sets lose it, before the next is taken (R135). -/
def State.retired (s : State) (k : SlotId) : State :=
  (({ s with journal := s.released k } : State).retireSlot k).leaveWaitSets (fun _ => true) fun j => decide (j ≠ k)

theorem State.retire_eq (s : State) (k : SlotId) : s.retire k = (s.retired k).takeApplyHead := rfl

/-- Where the oldest placement that remains lies decides whether the release passes a pad (R136). -/
theorem Journal.release_of_pad {j : Journal} {r : Region} {position size : Nat} {oldest : Option Nat}
    (some_ : 0 < j.fill - size) (inside : (if position + size = r.size then 0 else position + size) ≠ 0)
    (wraps : oldest = some 0) :
    (j.release r position size oldest).tail = 0 ∧ (j.release r position size oldest).fill =
      j.fill - size - (r.size - if position + size = r.size then 0 else position + size) := by
  simp only [Journal.release, some_, inside, wraps, ne_eq, not_false_eq_true, and_self, if_true]

theorem Journal.release_of_no_pad {j : Journal} {r : Region} {position size : Nat} {oldest : Option Nat}
    (no : j.fill - size = 0 ∨ (if position + size = r.size then 0 else position + size) = 0 ∨ oldest ≠ some 0) :
    (j.release r position size oldest).tail = (if position + size = r.size then 0 else position + size) ∧
      (j.release r position size oldest).fill = j.fill - size := by
  have kept : ¬ (0 < j.fill - size ∧ (if position + size = r.size then 0 else position + size) ≠ 0 ∧
      oldest = some 0) := by
    rintro ⟨some_, inside, wraps⟩
    obtain h | h | h := no
    · omega
    · exact inside h
    · exact h wraps
  simp only [Journal.release, kept, if_false, and_self]

section

variable (s : State) (k : SlotId)

theorem State.retired_slot (j : SlotId) : (s.retired k).slot j = if j = k then Slot.empty else s.slot j := by
  rw [State.retired, State.slot_congr (State.leaveWaitSets_slots _ _ _), State.retireSlot_slot]
  rfl

theorem State.retired_entry_iff (i : Fin 96) (e : StagingEntry) :
    (s.retired k).pool[i] = some e ↔ s.pool[i] = some e ∧ e.slot ≠ k := by
  rw [State.retired, State.leaveWaitSets_pool, State.retireSlot_entry_iff]

/-- What a retirement changes, before the next slot is taken. -/
theorem State.retired_eq : ∃ slots pool sources,
    s.retired k = { s with slots, pool, sources, apply := { s.apply with applying := none },
                           journal := { s.journal with tail := (s.released k).tail, fill := (s.released k).fill } } := by
  obtain ⟨tail, fill, _, released⟩ := s.journal.release_eq s.ring ((s.slot k).position.getD 0)
    ((s.slot k).recordSize.getD 0) s.oldestAfter
  rw [State.retired, State.released, released, State.retireSlot, State.freeSlot_eq]
  exact ⟨_, _, _, rfl⟩

theorem State.retired_apply : (s.retired k).apply = { s.apply with applying := none } := by
  obtain ⟨_, _, _, h⟩ := s.retired_eq k
  rw [h]

theorem State.retired_journal :
    (s.retired k).journal = { s.journal with tail := (s.released k).tail, fill := (s.released k).fill } := by
  obtain ⟨_, _, _, h⟩ := s.retired_eq k
  rw [h]

/-- FLUSH wait sets lose the retired slot; nothing else of a source's entry changes (R81). -/
theorem State.retired_source (i : Source) : (s.retired k).source i = { s.source i with
    completion := (s.source i).completion.map (Completion.keepMembers (fun _ => true) fun j => decide (j ≠ k)) } := by
  rw [State.retired, State.leaveWaitSets_source, State.source_congr (s := s) (by simp [State.retireSlot])]

theorem State.retire_journal : (s.retire k).journal = (s.retired k).journal := by
  rw [State.retire_eq, State.takeApplyHead_journal]

theorem State.retire_source (i : Source) : (s.retire k).source i = (s.retired k).source i := by
  rw [State.retire_eq, State.source_congr (s.retired k).takeApplyHead_sources]

theorem State.retire_entry_iff (i : Fin 96) (e : StagingEntry) :
    (s.retire k).pool[i] = some e ↔ s.pool[i] = some e ∧ e.slot ≠ k := by
  rw [State.retire_eq, State.takeApplyHead_pool, State.retired_entry_iff]

/-- What a retirement changes (R135). -/
theorem State.retire_fields : s.retire k =
    { s with slots := (s.retire k).slots, pool := (s.retire k).pool, apply := (s.retire k).apply,
             sources := (s.retire k).sources,
             journal := { s.journal with tail := (s.retire k).journal.tail, fill := (s.retire k).journal.fill } } := by
  obtain ⟨slots, pool, sources, h⟩ := s.retired_eq k
  obtain ⟨apply, slots', h'⟩ := (s.retired k).takeApplyHead_eq
  rw [State.retire_eq, h', h]

theorem State.retire_of_empty {s : State} {k : SlotId} (empty : s.apply.queue = []) : s.retire k = s.retired k := by
  rw [State.retire_eq, State.takeApplyHead_of_empty (s := s.retired k) (by rw [State.retired_apply]; exact empty)]

theorem State.retire_of_head {s : State} {j k : SlotId} {queue : List SlotId} (head : s.apply.queue = j :: queue) :
    s.retire k = (s.retired k).applySlot j queue := by
  have next : (s.retired k).apply = { queue := j :: queue, applying := none } := by
    rw [State.retired_apply]
    exact congrArg (fun queue => ({ queue, applying := none } : Apply)) head
  rw [State.retire_eq, State.takeApplyHead_of_head next]

end

/-- Settles O40: the home write by the list's length; the retirement by the Apply Queue and the ring. -/
theorem applyWritesAndRetirement : Obligations.ApplyWritesAndRetirement := by
  constructor
  · intro s k n word mask data applying cursor flying written
    refine ⟨fun more => ?_, fun last => ?_⟩
    · rw [exec_homeWriteCompletion applying flying,
        State.homeWritten_of_more (s := s.written word mask data) cursor more]
      rfl
    · rw [exec_homeWriteCompletion applying flying,
        State.homeWritten_of_last (s := s.written word mask data) cursor last]
      rfl
  · intro s k r position size word mask data applying notQueued region at_ sized flying
    have slot := (s.written word mask data).retired_slot k
    have source := fun i => ((s.written word mask data).retire_source k i).trans
      ((s.written word mask data).retired_source k i)
    have ring : ((s.written word mask data).retire k).journal = _ :=
      ((s.written word mask data).retire_journal k).trans ((s.written word mask data).retired_journal k)
    have released : (s.written word mask data).released k = s.journal.release r position size s.oldestAfter := by
      show s.journal.release s.ring ((s.slot k).position.getD 0) ((s.slot k).recordSize.getD 0) s.oldestAfter = _
      rw [State.ring_of_region region, at_, sized]
      rfl
    rw [released] at ring
    refine ⟨_, exec_retirement applying flying, (s.written word mask data).retire_fields k, ?_,
      (s.written word mask data).retire_entry_iff k, fun empty => ?_, fun j queue head => ?_, fun i => ?_, ?_⟩
    · cases head : s.apply.queue with
      | nil =>
        rw [State.retire_of_empty (s := s.written word mask data) head, slot, if_pos rfl]
      | cons j queue =>
        have other : j ≠ k := fun h => notQueued (by rw [head, h]; exact List.mem_cons_self)
        rw [State.retire_of_head (s := s.written word mask data) head, State.applySlot_slot, if_neg other, slot,
          if_pos rfl]
    · rw [State.retire_of_empty (s := s.written word mask data) empty]
      refine ⟨?_, fun j other => by rw [slot, if_neg other]; rfl⟩
      rw [State.retired_apply]
      exact congrArg (fun queue => ({ queue, applying := none } : Apply)) empty
    · have other : j ≠ k := fun h => notQueued (by rw [head, h]; exact List.mem_cons_self)
      rw [State.retire_of_head (s := s.written word mask data) head]
      refine ⟨rfl, ?_, fun i notk notj => ?_⟩
      · rw [State.applySlot_slot, if_pos rfl, slot, if_neg other]
        rfl
      · rw [State.applySlot_slot, if_neg notj.symm, slot, if_neg notk]
        rfl
    · rw [source]
      refine ⟨rfl, fun stamps slots flush => ?_, fun no => Completion.map_keepMembers_of_other no⟩
      refine (congrArg (Option.map (Completion.keepMembers _ _)) flush).trans ?_
      simp only [Option.map_some, Completion.keepMembers_of_flush, List.filter_true, filter_ne_eq_nil_iff]
    · rw [ring]
      have oldest := s.oldestAfter_eq
      exact ⟨fun some_ inside wraps => Journal.release_of_pad some_ inside (oldest.trans wraps), fun no =>
        Journal.release_of_no_pad (no.imp_right fun h => h.imp_right fun h => oldest ▸ h)⟩

end Sys2Proof.Machine
end

section
/-! SUPPORT. The Management Link: what the items of its commands do, what a write transaction comes to, and what a read
transaction returns (R177 to R188, R193). -/

namespace Sys2Proof.Machine

/-! ### The operands of an item -/

theorem windowIndex_of_val {b : Byte} {i : WindowId} (h : b.toNat = i.val) : windowIndex b = some i := by
  rw [windowIndex, dif_pos (h ▸ i.isLt)]
  exact congrArg some (Fin.ext h)

theorem windowIndex_of_large {b : Byte} (h : 8 ≤ b.toNat) : windowIndex b = none :=
  dif_neg (Nat.not_lt.2 h)

theorem guardValue_of_le_one {b : Byte} (h : b.toNat ≤ 1) : guardValue b = some (decide (b = 1)) := by
  have value : b = 0 ∨ b = 1 := by bv_omega
  obtain rfl | rfl := value <;> rfl

theorem guardValue_of_large {b : Byte} (h : 2 ≤ b.toNat) : guardValue b = none := by
  have zero : b ≠ 0 := by bv_omega
  have one : b ≠ 1 := by bv_omega
  rw [guardValue, if_neg zero, if_neg one]

section

variable (s : State)

theorem State.setRuntimeGuardItem_of_range {index value : Byte} (range : 8 ≤ index.toNat ∨ 2 ≤ value.toNat) :
    s.setRuntimeGuardItem index value = s.itemTaken .setRuntimeGuard .range := by
  obtain large | large := range
  · simp only [State.setRuntimeGuardItem, windowIndex_of_large large]
  · simp only [State.setRuntimeGuardItem, guardValue_of_large large]
    cases windowIndex index <;> rfl

theorem State.setRuntimeGuardItem_of_index {index value : Byte} {i : WindowId} (at_ : index.toNat = i.val)
    (small : value.toNat ≤ 1) :
    s.setRuntimeGuardItem index value =
      State.itemTaken { s with windows := s.windows.set i { s.windows[i] with runtimeGuard := decide (value = 1) } }
        .setRuntimeGuard .ok := by
  simp only [State.setRuntimeGuardItem, windowIndex_of_val at_, guardValue_of_le_one small]

theorem State.setStoredGuardItem_of_range {index value : Byte} (range : 8 ≤ index.toNat ∨ 2 ≤ value.toNat) :
    s.setStoredGuardItem index value = s.itemTaken .setStoredGuard .range := by
  obtain large | large := range
  · simp only [State.setStoredGuardItem, windowIndex_of_large large]
  · simp only [State.setStoredGuardItem, guardValue_of_large large]
    cases windowIndex index <;> rfl

theorem State.setStoredGuardItem_of_index {index value : Byte} {i : WindowId} (at_ : index.toNat = i.val)
    (small : value.toNat ≤ 1) :
    s.setStoredGuardItem index value =
      if s.ml.guardLock then s.itemTaken .setStoredGuard .locked
      else if s.linkBusy then s.itemTaken .setStoredGuard .busy
      else (s.beginLinkOp (.guardReadFlags i (decide (value = 1)))).itemTaken .setStoredGuard .ok := by
  simp only [State.setStoredGuardItem, windowIndex_of_val at_, guardValue_of_le_one small]

/-- A new operation is refused while one runs and while the image is loaded (R186). -/
theorem State.linkBusy_iff : s.linkBusy = true ↔ s.cl.op ≠ none ∨ s.op = .loading := by
  simp [State.linkBusy, Option.isSome_iff_ne_none]

theorem State.quiet_unlocked {s : State} (unlocked : s.ml.guardLock = false) : ¬ s.quiet.ml.guardLock = true :=
  Bool.eq_false_iff.1 unlocked

theorem State.linkBusy_of_idle {s : State} (idle : s.cl.op = none) (loaded : s.op ≠ .loading) : s.linkBusy = false :=
  Bool.eq_false_iff.2 fun busy => (s.linkBusy_iff.1 busy).elim (· idle) loaded

theorem State.clearFlagBits_flag (mask : BitVec 16) (f : Flag) :
    (s.clearFlagBits mask).flag f = (s.flag f && !mask.getLsbD f.bit.val) := by
  have bit := f.bit.isLt
  simp [State.flag, State.clearFlagBits, bit]

/-! ### The commands with power (R177) -/

theorem exec_clearFlags_of_up {s : State} (up : s.power = .up) (mask : BitVec 16) :
    exec (.clearFlags mask) s = .next (s.quiet.clearFlagsItem mask) :=
  congrArg Host.Outcome.next (State.managed_of_up (s := s.quiet) up _)

theorem exec_lockGuards_of_up {s : State} (up : s.power = .up) : exec .lockGuards s = .next s.quiet.lockGuardsItem :=
  congrArg Host.Outcome.next (State.managed_of_up (s := s.quiet) up _)

theorem exec_setRuntimeGuard_of_up {s : State} (up : s.power = .up) (index value : Byte) :
    exec (.setRuntimeGuard index value) s = .next (s.quiet.setRuntimeGuardItem index value) :=
  congrArg Host.Outcome.next (State.managed_of_up (s := s.quiet) up _)

theorem exec_setStoredGuard_of_up {s : State} (up : s.power = .up) (index value : Byte) :
    exec (.setStoredGuard index value) s = .next (s.quiet.setStoredGuardItem index value) :=
  congrArg Host.Outcome.next (State.managed_of_up (s := s.quiet) up _)

theorem exec_eepromRead_of_up {s : State} (up : s.power = .up) (addr : Byte) :
    exec (.eepromRead addr) s = .next (s.quiet.eepromReadItem addr) :=
  congrArg Host.Outcome.next (State.managed_of_up (s := s.quiet) up _)

theorem exec_eepromWrite_of_up {s : State} (up : s.power = .up) (addr data : Byte) :
    exec (.eepromWrite addr data) s = .next (s.quiet.eepromWriteItem addr data) :=
  congrArg Host.Outcome.next (State.managed_of_up (s := s.quiet) up _)

theorem exec_reload_of_up {s : State} (up : s.power = .up) : exec .reload s = .next s.quiet.reloadItem :=
  congrArg Host.Outcome.next (State.managed_of_up (s := s.quiet) up _)

theorem exec_linkReset_of_up {s : State} (up : s.power = .up) : exec .linkReset s = .next s.quiet.linkResetItem :=
  congrArg Host.Outcome.next (State.managed_of_up (s := s.quiet) up _)

/-! ### Write transactions -/

/-- An unknown number leaves the selection (R177). -/
theorem State.writeTransaction_of_unknown {n : Byte} (number : Item.ofNumber n = none) (rest : List Byte) :
    s.writeTransaction (n :: rest) = s.setResult .unknown := by
  simp only [State.writeTransaction, number]

/-- An item that is only read is selected (R177). -/
theorem State.writeTransaction_of_read {n : Byte} {item : Item} (number : Item.ofNumber n = some item)
    (read : item.commandLength = none) (rest : List Byte) :
    s.writeTransaction (n :: rest) = s.itemTaken item .ok := by
  simp only [State.writeTransaction, number, read]

end

/-- Settles O48: each item by its definition, the guard's operands by their ranges. -/
theorem itemsThatActAtOnce : Obligations.ItemsThatActAtOnce := by
  refine ⟨fun s mask up => ⟨⟨_, exec_clearFlags_of_up up mask, rfl, s.clearFlagBits_flag mask⟩, ?mask,
    exec_lockGuards_of_up up⟩, fun s index value up => ⟨fun i at_ small => ?index, fun range => ?range⟩⟩
  case mask =>
    rw [exec_alertMask_of_up up, State.alertMaskItem_eq]
    rfl
  case index =>
    rw [exec_setRuntimeGuard_of_up up, State.setRuntimeGuardItem_of_index _ at_ small]
    rfl
  case range =>
    rw [exec_setRuntimeGuard_of_up up, State.setRuntimeGuardItem_of_range _ range]
    rfl

/-- Settles O50: the transaction by its first byte and its length. -/
theorem writeTransactionSelects : Obligations.WriteTransactionSelects := by
  intro s n rest up
  simp only [exec_managementWriteTransaction_of_up up]
  refine ⟨rfl, fun unknown => ?unknown, fun item number read => ?read, fun item length number command short notRead =>
    ?short⟩
  case unknown =>
    rw [State.writeTransaction_of_unknown _ unknown]
    rfl
  case read =>
    rw [State.writeTransaction_of_read _ number read]
    rfl
  case short =>
    rw [State.writeTransaction_of_short _ number command notRead short]
    rfl

/-- Settles O52: each item's refusals in their order, RANGE, LOCKED, BUSY. -/
theorem linkItemsBeginOrAreRefused : Obligations.LinkItemsBeginOrAreRefused := by
  intro s index value addr data up answered begun
  rw [exec_setStoredGuard_of_up up, exec_eepromWrite_of_up up, exec_eepromRead_of_up up]
  refine ⟨fun range => ?range, fun i at_ small => ?named, fun locked => ?locked, fun busy => ?busy,
    fun idle loaded => ?idle⟩
  case range =>
    rw [State.setStoredGuardItem_of_range _ range]
    rfl
  case named =>
    rw [State.setStoredGuardItem_of_index _ at_ small]
    refine ⟨fun locked => ?_, fun unlocked busy => ?_, fun unlocked idle loaded => ?_⟩
    · rw [if_pos (show s.quiet.ml.guardLock = true from locked)]
      rfl
    · rw [if_neg (State.quiet_unlocked unlocked), if_pos (s.quiet.linkBusy_iff.2 busy)]
      rfl
    · rw [if_neg (State.quiet_unlocked unlocked),
        if_neg (Bool.eq_false_iff.1 (State.linkBusy_of_idle (s := s.quiet) idle loaded))]
      rfl
  case locked =>
    rw [State.eepromWriteItem, if_pos (show s.quiet.ml.guardLock = true from locked)]
    rfl
  case busy =>
    have refused := s.quiet.linkBusy_iff.2 busy
    refine ⟨?_, fun unlocked => ?_⟩
    · rw [State.eepromReadItem, if_pos refused]
      rfl
    · rw [State.eepromWriteItem, if_neg (State.quiet_unlocked unlocked), if_pos refused]
      rfl
  case idle =>
    have free := Bool.eq_false_iff.1 (State.linkBusy_of_idle (s := s.quiet) idle loaded)
    refine ⟨?_, fun unlocked => ?_⟩
    · rw [State.eepromReadItem, if_neg free]
      rfl
    · rw [State.eepromWriteItem, if_neg (State.quiet_unlocked unlocked), if_neg free]
      rfl

/-! ### What the link shows -/

/-- Every bit of the flags is one flag's (spec/12). -/
theorem Flag.exists_bit (i : Fin 9) : ∃ f : Flag, f.bit = i := by
  fin_cases i
  exacts [⟨.cfgError, rfl⟩, ⟨.recoveryDamage, rfl⟩, ⟨.holdExpired, rfl⟩, ⟨.collectExpired, rfl⟩, ⟨.groupAborted, rfl⟩,
    ⟨.guardRefused, rfl⟩, ⟨.parity, rfl⟩, ⟨.powerWarn, rfl⟩, ⟨.ringWait, rfl⟩]

/-- ALERT_N is asserted while a flag is set that the mask names (R180). -/
theorem State.alert_iff (s : State) :
    s.alert = true ↔ s.power = .up ∧ ∃ f : Flag, s.flag f = true ∧ s.ml.alertMask.getLsbD f.bit.val = true := by
  simp only [State.alert, Bool.and_eq_true, decide_eq_true_eq, State.flag]
  refine and_congr_right fun _ => ⟨fun some_ => ?_, fun ⟨f, set, named⟩ zero => ?_⟩
  · by_contra none_
    refine some_ (BitVec.eq_of_getLsbD_eq fun i hi => ?_)
    obtain ⟨f, bit⟩ := Flag.exists_bit ⟨i, hi⟩
    have at_ : f.bit.val = i := congrArg Fin.val bit
    refine (BitVec.getLsbD_and ..).trans (Eq.trans ?_ BitVec.getLsbD_zero.symm)
    refine Bool.eq_false_iff.2 fun both => none_ ⟨f, ?_⟩
    rw [at_]
    exact Bool.and_eq_true_iff.1 both
  · have bit : (s.ml.flags &&& s.ml.alertMask).getLsbD f.bit.val = false := by
      rw [zero]
      exact BitVec.getLsbD_zero
    rw [BitVec.getLsbD_and, set, named] at bit
    cases bit

theorem lowFirst_two (n : Nat) : lowFirst 2 n = [BitVec.ofNat 8 (n / 256 ^ 0), BitVec.ofNat 8 (n / 256 ^ 1)] := by
  simp [lowFirst]

theorem lowFirst_three (n : Nat) :
    lowFirst 3 n = [BitVec.ofNat 8 (n / 256 ^ 0), BitVec.ofNat 8 (n / 256 ^ 1), BitVec.ofNat 8 (n / 256 ^ 2)] := by
  simp [lowFirst, Nat.div_div_eq_div_mul]

theorem lowFirst_four (n : Nat) : lowFirst 4 n = [BitVec.ofNat 8 (n / 256 ^ 0), BitVec.ofNat 8 (n / 256 ^ 1),
    BitVec.ofNat 8 (n / 256 ^ 2), BitVec.ofNat 8 (n / 256 ^ 3)] := by
  simp [lowFirst, Nat.div_div_eq_div_mul]

theorem State.readTransaction_of_selected {s : State} (up : s.power = .up) {item : Item}
    (selected : s.ml.selected = item) : s.readTransaction = some (s.ml.result.toByte :: s.itemData item) := by
  rw [State.readTransaction, if_pos up, selected]

/-- Settles O51: the data of each item, its numbers low byte first and its codes one by one. -/
theorem managementLinkShows : Obligations.ManagementLinkShows := by
  refine ⟨fun s => ⟨fun down => if_neg down, ?ready, s.alert_iff⟩, fun s up => ?shows, rfl, rfl⟩
  case ready => simp [State.ready]
  case shows =>
    intro byte bool result state port slot kind code cause shows
    have shown : ∀ {item : Item} {data : List Byte}, s.ml.selected = item → s.itemData item = data → shows data := by
      intro item data selected holds
      have answered : s.ml.result.toByte = result := by cases h : s.ml.result <;> simp only [result, h] <;> rfl
      exact (State.readTransaction_of_selected up selected).trans (by rw [holds, answered])
    have bit_ : ∀ b, bit b = (bool b : Byte) := fun b => by cases b <;> rfl
    refine ⟨fun selected => shown selected ?status, fun selected => shown selected (lowFirst_two _),
      fun selected => shown selected (lowFirst_two _), fun c selected => shown selected (lowFirst_four _),
      fun selected => ⟨fun empty => shown selected ?noFault, fun r fault => shown selected ?fault⟩,
      fun selected => ⟨fun empty => shown selected ?noEnd, fun k src outcome ended => ?ended⟩,
      fun selected => shown selected ?eeprom, fun selected => ?commands⟩
    case status =>
      have state_ : s.op.toByte = state := by cases h : s.op <;> simp only [state, h] <;> rfl
      have port_ : bit (decide (s.mp.port = .quiesced)) = port := by cases h : s.mp.port <;> simp only [port, h] <;> rfl
      have slot_ : ∀ k, (s.slot k).state.toByte = slot k := fun k => by
        cases h : (s.slot k).state <;> simp only [slot, h] <;> rfl
      simp only [State.itemData, State.statusBytes, lowFirst_two, lowFirst_three, lowFirst_four, state_, port_, bit_,
        allSlots, List.map_cons, List.map_nil, slot_]
      rfl
    case noFault => simp only [State.itemData, State.lastFaultBytes, empty]
    case fault =>
      have kind_ : r.kind.toByte = kind r.kind := by cases h : r.kind <;> rfl
      have code_ : r.code.toByte = code r.code := by cases h : r.code <;> rfl
      simp only [State.itemData, State.lastFaultBytes, fault, lowFirst_three, kind_, code_, byte, pow_zero,
        Nat.div_one]
      rfl
    case noEnd => simp only [State.itemData, State.lastEndBytes, empty]
    case ended =>
      intro closes
      have shownEnd : ∀ {data : List Byte}, outcome.bytes = data → closes data := by
        intro data bytes
        refine shown selected ?_
        simp only [State.itemData, State.lastEndBytes, ended, bytes, byte, pow_zero, Nat.div_one]
        rfl
      refine ⟨fun n h => shownEnd ?_, fun n h => shownEnd ?_, fun reason h => shownEnd ?_, fun h => shownEnd ?_,
        fun c h => shownEnd ?_⟩
      · simp only [h, EndOutcome.bytes, lowFirst_four]; rfl
      · simp only [h, EndOutcome.bytes, lowFirst_four]; rfl
      · simp only [h, EndOutcome.bytes]
      · simp only [h, EndOutcome.bytes]
      · have cause_ : c.toByte = cause c := by cases c <;> rfl
        simp only [h, EndOutcome.bytes, cause_]
    case eeprom => simp only [State.itemData, bit_]
    case commands =>
      refine shown rfl ?_
      simp only [List.mem_cons, List.not_mem_nil, or_false] at selected
      obtain h | h | h | h | h | h | h | h := selected <;> rw [h] <;> rfl

end Sys2Proof.Machine
end

section
/-! SUPPORT. Link reset and RELOAD: what their commands come to, and the end of RELOAD's wait condition by condition
(R171 to R175, R190). -/

namespace Sys2Proof.Machine

/-! ### Link reset -/

/-- The operating state with the note that goes with it. -/
def State.withOp (s : State) (op : OperatingState) (guardsCleared : Bool) : State := { s with op, guardsCleared }

section

variable (s : State) (op : OperatingState) (guardsCleared : Bool)

theorem State.linkResetSlot_withOp (k : SlotId) :
    (s.withOp op guardsCleared).linkResetSlot k = (s.linkResetSlot k).withOp op guardsCleared := by
  unfold State.linkResetSlot
  rw [show ((s.withOp op guardsCleared).slot k) = s.slot k from rfl]
  cases (s.slot k).state <;> rfl

theorem State.dropHeldRead_withOp :
    (s.withOp op guardsCleared).dropHeldRead = s.dropHeldRead.withOp op guardsCleared := by
  unfold State.dropHeldRead
  rw [show (s.withOp op guardsCleared).held = s.held from rfl]
  cases s.held <;> rfl

theorem State.resetSlots_withOp : (s.withOp op guardsCleared).resetSlots = s.resetSlots.withOp op guardsCleared := by
  rw [State.resetSlots, State.resetSlots, State.dropHeldRead_withOp]
  exact List.foldl_hom (State.withOp · op guardsCleared) fun x k => (x.linkResetSlot_withOp op guardsCleared k)

/-- The operating state takes no part in a link reset (R171). -/
theorem State.linkReset_withOp : (s.withOp op guardsCleared).linkReset = s.linkReset.withOp op guardsCleared := by
  have slots := s.resetSlots_withOp op guardsCleared
  unfold State.resetSlots at slots
  unfold State.linkReset
  rw [slots]
  generalize allSlots.foldl State.linkResetSlot s.dropHeldRead = x
  rfl

/-! ### What the commands come to -/

theorem exec_lrstAsserted_of_up {s : State} (up : s.power = .up) :
    exec .lrstAsserted s = .next (s.quiet.setLrst true).linkReset :=
  congrArg Host.Outcome.next (if_pos up)

/-- A link reset answers the held READ (R4). -/
theorem State.linkReset_bus : s.linkReset.bus =
    match s.held with
    | none => s.bus
    | some h => .answer h.source .retry := by
  have slots : s.linkReset.bus = s.dropHeldRead.bus := by
    have reset : s.linkReset.bus = s.resetSlots.bus := by simp [State.linkReset, State.resetSlots]
    rw [reset]
    refine foldl_keeps (P := fun y : State => y.bus = s.dropHeldRead.bus) (fun y k h => ?_) allSlots s.dropHeldRead rfl
    obtain ⟨_, _, _, _, _, slot⟩ := y.linkResetSlot_eq k
    rw [slot]
    exact h
  rw [slots, State.dropHeldRead]
  cases s.held <;> rfl

/-- What a link reset changes (R171). -/
theorem State.linkReset_fields : s.linkReset =
    { s with held := none, bus := s.linkReset.bus, slots := s.linkReset.slots, pool := s.linkReset.pool,
             sources := s.linkReset.sources,
             posted := { s.posted with entries := s.linkReset.posted.entries,
                                       barriers := s.linkReset.posted.barriers },
             journal := { s.journal with commitQueue := [], ringWait := false },
             ml := { s.ml with counters := s.linkReset.ml.counters, lastEnd := s.linkReset.ml.lastEnd } } := by
  have none_ := s.linkReset_held
  obtain ⟨held, _, _, _, _, _, _, _, _, h⟩ := s.linkReset_eq
  rw [h] at none_ ⊢
  obtain rfl : held = none := none_
  rfl

end

/-- The slots that a link reset discards, as the obligation writes them. -/
theorem SlotState.discardedByReset_eq (x : SlotState) :
    x.discardedByReset = decide (x = .filling ∨ x = .ready ∨ x = .queued) := by
  cases x <;> decide

/-- Settles O42: the commands by the power; the reset itself field by field. -/
theorem linkReset : Obligations.LinkReset := by
  refine ⟨fun s => ⟨fun up => ⟨exec_lrstAsserted_of_up up, exec_linkReset_of_up up⟩,
    fun down => ⟨congrArg Host.Outcome.next (if_neg down), congrArg Host.Outcome.next (if_neg down)⟩, rfl⟩,
    fun s => ⟨_, rfl, s.linkReset_fields, s.linkReset_bus, fun k => ?slot, fun i e => ?entry, s.linkReset_source,
      ?posted, fun k => ?barrier, fun c => ?counter, ?lastEnd⟩⟩
  case slot =>
    rw [s.linkReset_slot k]
    simp only [← SlotState.freedByReset_eq_false_iff]
    cases (s.slot k).state.freedByReset <;> rfl
  case entry => rw [s.linkReset_entry_iff i e, SlotState.freedByReset_eq_false_iff]
  case posted => rw [s.linkReset_entries_eq, s.resetSlots_entries]
  case barrier =>
    rw [s.linkReset_barrier k]
    simp only [SlotState.discardedByReset_iff]
  case counter =>
    rw [s.linkReset_counter c]
    simp only [SlotState.discardedByReset_eq]
  case lastEnd =>
    simp only [← SlotState.discardedByReset_eq]
    exact s.linkReset_lastEnd

/-! ### RELOAD's wait -/

section

variable {s : State}

/-- What the wait of R174 waits for. -/
theorem State.drained_iff : s.drained = true ↔ s.journal.commitQueue = [] ∧ s.apply.queue = [] ∧
    s.apply.applying = none ∧ s.posted.entries = [] ∧ ∀ k, (s.slot k).state ≠ .sealing := by
  simp only [State.drained, Bool.and_eq_true, decide_eq_true_eq, Option.isNone_iff_eq_none,
    State.sealingSlot_isNone_iff]
  tauto

theorem State.endReloadWait_of_other (other : s.op ≠ .reloading) : s.endReloadWait = s := if_neg other

/-- The wait goes on while its work is not done or the port is QUIESCED (R152, R174). -/
theorem State.endReloadWait_of_waiting (kept : s.guardsCleared = false)
    (waiting : ¬ (s.mp.port = .active ∧ s.drained = true)) : s.endReloadWait = s := by
  have begins : (s.drained && decide (s.mp.port = .active) && !s.guardsCleared) = false := by
    rw [Bool.eq_false_iff]
    simp only [ne_eq, Bool.and_eq_true, decide_eq_true_eq]
    exact fun h => waiting ⟨h.1.2, h.1.1⟩
  simp only [State.endReloadWait, begins, Bool.false_eq_true, if_false]
  simp only [kept, Bool.false_eq_true, false_and, if_false, ite_self]

/-- At its end the runtime guards are cleared, and LOADING is entered if the link is idle (R174, R175). -/
theorem State.endReloadWait_of_over (reloading : s.op = .reloading) (kept : s.guardsCleared = false)
    (active : s.mp.port = .active) (over_ : s.drained = true) :
    s.endReloadWait = if s.cl.op = none then s.clearRuntimeGuards.withOp .loading false
      else s.clearRuntimeGuards.withOp s.op true := by
  have begins : (s.drained && decide (s.mp.port = .active) && !s.guardsCleared) = true := by
    rw [over_, active, kept]
    rfl
  rw [State.endReloadWait, if_pos reloading]
  simp only [begins, if_true, true_and]
  rfl

/-- With the guards cleared LOADING is entered once the link is idle (R175). -/
theorem State.endReloadWait_of_cleared (reloading : s.op = .reloading) (cleared : s.guardsCleared = true) :
    s.endReloadWait = if s.cl.op = none then s.withOp .loading false else s := by
  have begun : (s.drained && decide (s.mp.port = .active) && !s.guardsCleared) = false := by
    rw [cleared, Bool.not_true, Bool.and_false]
  rw [State.endReloadWait, if_pos reloading]
  simp only [begun, Bool.false_eq_true, if_false]
  simp only [cleared, true_and]
  rfl

end

/-- Of what RELOAD's wait waits for, its own link reset ends the Commit Queue's part alone. -/
theorem State.linkReset_drained_iff (s : State) : s.linkReset.drained = true ↔ s.apply.queue = [] ∧
    s.apply.applying = none ∧ s.posted.entries = [] ∧ ∀ k, (s.slot k).state ≠ .sealing := by
  have sealing : ∀ k, (s.linkReset.slot k).state ≠ .sealing ↔ (s.slot k).state ≠ .sealing := fun k => by
    rw [s.linkReset_slot k]
    cases h : (s.slot k).state <;>
      simp [h, SlotState.freedByReset, SlotState.discardedByReset, Slot.empty]
  simp only [State.drained_iff, State.linkReset_journal, State.linkReset_apply, State.linkReset_entries_eq,
    State.resetSlots_entries, List.map_eq_nil_iff, sealing, true_and]

/-- RELOAD in RUNNING and UNCONFIGURED: a link reset in RELOADING, then the wait (R173). -/
theorem State.reloadItem_of_begun {s : State} (op : s.op = .running ∨ s.op = .unconfigured) :
    s.reloadItem = ((s.linkReset.withOp .reloading false).endReloadWait).itemTaken .reload .ok := by
  rw [← State.linkReset_withOp]
  unfold State.reloadItem
  obtain h | h := op <;> rw [h] <;> rfl

theorem State.reloadItem_of_busy {s : State} (op : s.op = .loading ∨ s.op = .recovering ∨ s.op = .reloading) :
    s.reloadItem = s.itemTaken .reload .busy := by
  unfold State.reloadItem
  obtain h | h | h := op <;> rw [h]

/-- Settles O43: the item by the operating state, the wait by its conditions. -/
theorem reload : Obligations.Reload := by
  refine ⟨fun s up => ⟨fun busy => ?busy, fun begun => ?begun⟩, fun s => ⟨State.endReloadWait_of_other,
    fun reloading => ?wait⟩⟩
  case busy =>
    rw [exec_reload_of_up up, State.reloadItem_of_busy (s := s.quiet) busy]
    rfl
  case begun =>
    intro t ends result cleared
    have taken : exec .reload s = .next (((t.withOp .reloading false).endReloadWait).itemTaken .reload .ok) := by
      rw [exec_reload_of_up up, State.reloadItem_of_begun (s := s.quiet) begun]
      rfl
    rw [taken]
    have windows : t.windows = s.windows := s.quiet.linkReset_windows
    have mp : t.mp = s.mp := s.quiet.linkReset_mp
    have cl : t.cl = s.cl := s.quiet.linkReset_cl
    have drained_iff : t.drained = true ↔ _ := s.quiet.linkReset_drained_iff
    clear_value t
    have over_ : ends ↔ (t.withOp .reloading false).mp.port = .active ∧ (t.withOp .reloading false).drained = true :=
      and_congr (by rw [← mp]; rfl) drained_iff.symm
    replace cl : (t.withOp .reloading false).cl = s.cl := cl
    refine ⟨fun no => ?_, fun yes idle => ?_, fun yes busy => ?_⟩
    · rw [State.endReloadWait_of_waiting rfl (mt over_.2 no)]
      simp only [result, ← windows]
      rfl
    · obtain ⟨active, drained⟩ := over_.1 yes
      rw [State.endReloadWait_of_over rfl rfl active drained, if_pos (by rw [cl]; exact idle)]
      simp only [result, cleared, ← windows]
      rfl
    · obtain ⟨active, drained⟩ := over_.1 yes
      rw [State.endReloadWait_of_over rfl rfl active drained, if_neg (by rw [cl]; exact busy)]
      simp only [result, cleared, ← windows]
      rfl
  case wait =>
    intro ends cleared
    have over_ : ends ↔ s.mp.port = .active ∧ s.drained = true := and_congr_right fun _ => State.drained_iff.symm
    refine ⟨fun kept no => State.endReloadWait_of_waiting kept (mt over_.2 no), fun kept yes busy => ?_,
      fun kept yes idle => ?_, fun done busy => ?_, fun done idle => ?_⟩
    · obtain ⟨active, drained⟩ := over_.1 yes
      rw [State.endReloadWait_of_over reloading kept active drained, if_neg busy]
      rfl
    · obtain ⟨active, drained⟩ := over_.1 yes
      rw [State.endReloadWait_of_over reloading kept active drained, if_pos idle, State.withOp, ← kept]
      rfl
    · rw [State.endReloadWait_of_cleared reloading done, if_neg busy]
    · rw [State.endReloadWait_of_cleared reloading done, if_pos idle]
      rfl

end Sys2Proof.Machine
end

section
/-! SUPPORT. Recovery: what the scanner makes of a header, of a candidate's further words and of a whole record, the end
of a pass, and replay (R164 to R169). -/

namespace Sys2Proof.Machine

/-! ### The scan -/

section

variable {s : State}

/-- The scan offset moved on by `n` bytes, the buffer cleared (R165). -/
def State.scannedBy (s : State) (n : Nat) : State :=
  s.setScanner { s.scanner with offset := s.scanner.offset + n, buffer := [] }

/-- The scan moves on, and at the ring size the pass ends (R165). -/
theorem State.advanceScan_eq {r : Region} (region : s.region = some r) (n : Nat) :
    s.advanceScan n =
      if r.size ≤ s.scanner.offset + n then (s.scannedBy n).endPass else s.scannedBy n := by
  have ring : (s.scannedBy n).ring = r := State.ring_of_region region
  rw [← ring]
  rfl

/-- A word read of the scanner has completed (R165). -/
theorem exec_recoveryReadCompletion {word : Addr} (scanning : s.scanner.activity = .scanning)
    (flying : s.mp.inFlight = some { requester := .scanner, op := .read word }) (parityFault : Bool) :
    exec (.recoveryReadCompletion parityFault) s =
      .next (s.quiet.landed.scanned parityFault (s.mem.readWord word)).settle := by
  have flying' : s.quiet.mp.inFlight = some { requester := .scanner, op := .read word } := flying
  simp only [exec, execRecoveryReadCompletion, flying', State.quiet_scanner, scanning,
    State.completeOp_of_read flying', State.quiet_mem]

theorem State.scanned_of_header (empty : s.scanner.buffer = []) (w : Word) :
    s.scanned true w = s.surveyParity.advanceScan 16 ∧ s.scanned false w = s.judgeHeader w := by
  simp only [State.scanned, empty, if_true, Bool.false_eq_true, if_false, and_self]

theorem State.scanned_of_word {header : Word} {more : List Word} (buffer : s.scanner.buffer = header :: more) (w : Word) :
    s.scanned true w = s.surveyParity.torn ∧ s.scanned false w = s.judgeWord header w := by
  simp only [State.scanned, buffer, if_true, Bool.false_eq_true, if_false, and_self]

theorem State.inSurvey_of_first (survey : s.scanner.pass = 1) : s.inSurvey = true := decide_eq_true survey

theorem State.inSurvey_of_later (later : s.scanner.pass ≠ 1) : s.inSurvey = false := decide_eq_false later

theorem State.surveyParity_of_first (survey : s.scanner.pass = 1) : s.surveyParity = s.noteParity :=
  if_pos (State.inSurvey_of_first survey)

theorem State.surveyParity_of_later (later : s.scanner.pass ≠ 1) : s.surveyParity = s :=
  if_neg (Bool.eq_false_iff.1 (State.inSurvey_of_later later))

theorem State.torn_of_first (survey : s.scanner.pass = 1) :
    s.torn = ((s.setScanner { s.scanner with damage := true }).count .tornCandidates).advanceScan 16 := by
  simp only [State.torn, State.inSurvey_of_first survey, if_true]

theorem State.torn_of_later (later : s.scanner.pass ≠ 1) : s.torn = s.advanceScan 16 := by
  simp only [State.torn, State.inSurvey_of_later later, Bool.false_eq_true, if_false]

/-! ### A header -/

/-- A word without the marker, or a pad's header, is no candidate (R165). -/
theorem State.judgeHeader_of_none {w : Word} (none_ : headerMarker w ≠ recordMarker ∨ headerState w = padByte) :
    s.judgeHeader w = s.advanceScan 16 := by
  simp only [State.judgeHeader]
  by_cases marker : headerMarker w = recordMarker
  · rw [if_neg (not_not.2 marker), if_pos (none_.resolve_left (not_not.2 marker))]
  · rw [if_pos marker]

/-- A header with the marker is torn when its state, its count or its fit is wrong (R165). -/
theorem State.judgeHeader_of_torn {r : Region} {w : Word} (region : s.region = some r)
    (marker : headerMarker w = recordMarker) (noPad : headerState w ≠ padByte)
    (torn : (headerState w ≠ liveByte ∧ headerState w ≠ retiredByte) ∨ headerCount w = 0 ∨ 32 < headerCount w ∨
      r.size < s.scanner.offset + placementSize (headerCount w)) :
    s.judgeHeader w = s.torn := by
  simp only [State.judgeHeader, State.ring_of_region region]
  rw [if_neg (not_not.2 marker), if_neg noPad, if_pos torn]

/-- Else the candidate's further words are read (R165). -/
theorem State.judgeHeader_of_candidate {r : Region} {w : Word} (region : s.region = some r)
    (marker : headerMarker w = recordMarker) (known : headerState w = liveByte ∨ headerState w = retiredByte)
    (counted : 1 ≤ headerCount w) (bounded : headerCount w ≤ 32)
    (fits : s.scanner.offset + placementSize (headerCount w) ≤ r.size) :
    s.judgeHeader w = s.setScanner { s.scanner with buffer := [w] } := by
  have noPad : headerState w ≠ padByte := by
    obtain h | h := known <;> rw [h] <;> decide
  have whole : ¬ ((headerState w ≠ liveByte ∧ headerState w ≠ retiredByte) ∨ headerCount w = 0 ∨
      32 < headerCount w ∨ r.size < s.scanner.offset + placementSize (headerCount w)) := by
    rintro (⟨live, retired⟩ | zero | large | outside)
    · exact known.elim live retired
    · omega
    · omega
    · omega
  simp only [State.judgeHeader, State.ring_of_region region]
  rw [if_neg (not_not.2 marker), if_neg noPad, if_neg whole]

end

/-- Settles O44: the parity fault, then the header by its marker, its state byte, its count and its fit. -/
theorem recoveryJudgesAHeader : Obligations.RecoveryJudgesAHeader := by
  intro s word r region scanning empty flying w e read passed
  have ran := exec_recoveryReadCompletion scanning flying
  obtain ⟨faulty, clean⟩ := State.scanned_of_header (s := s.quiet.landed) empty w
  have passes : ∀ x : State, x.region = some r → x.scanner.offset = s.scanner.offset →
      (x.advanceScan 16).settle = passed x := by
    intro x region' offset
    rw [State.advanceScan_eq region', offset]
    simp only [State.scannedBy, offset]
    rfl
  have none_ : headerMarker w ≠ recordMarker ∨ headerState w = padByte →
      exec (.recoveryReadCompletion false) s = .next (passed read) := fun none_ => by
    rw [ran, clean, State.judgeHeader_of_none none_]
    exact congrArg Host.Outcome.next (passes s.quiet.landed region rfl)
  refine ⟨fun survey => ?parity, fun later => ?parityLater, none_, fun marker noPad torn =>
    ⟨fun survey => ?torn, fun later => ?tornLater⟩, fun marker known counted bounded fits => ?candidate⟩
  case parity =>
    rw [ran, faulty, State.surveyParity_of_first (s := s.quiet.landed) survey]
    exact congrArg Host.Outcome.next (passes s.quiet.landed.noteParity region rfl)
  case parityLater =>
    rw [ran, faulty, State.surveyParity_of_later (s := s.quiet.landed) later]
    exact congrArg Host.Outcome.next (passes s.quiet.landed region rfl)
  case torn =>
    rw [ran, clean, State.judgeHeader_of_torn (s := s.quiet.landed) region marker noPad torn,
      State.torn_of_first (s := s.quiet.landed) survey]
    exact congrArg Host.Outcome.next (passes _ region rfl)
  case tornLater =>
    rw [ran, clean, State.judgeHeader_of_torn (s := s.quiet.landed) region marker noPad torn,
      State.torn_of_later (s := s.quiet.landed) later]
    exact congrArg Host.Outcome.next (passes s.quiet.landed region rfl)
  case candidate =>
    rw [ran, clean, State.judgeHeader_of_candidate (s := s.quiet.landed) region marker known counted bounded fits]
    rfl

/-! ### A candidate -/

section

variable {s : State}

/-- A torn candidate's mark on the state: counted and noted in the survey, the scan moved on by 16 (R165, R166). -/
def State.tornScan (s : State) : State :=
  { (if s.scanner.pass = 1 then s.count .tornCandidates else s) with
    scanner := { s.scanner with offset := s.scanner.offset + 16, buffer := [],
                                damage := s.scanner.damage || decide (s.scanner.pass = 1) } }

theorem State.torn_eq {r : Region} (region : s.region = some r) :
    s.torn = if r.size ≤ s.scanner.offset + 16 then s.tornScan.endPass else s.tornScan := by
  by_cases survey : s.scanner.pass = 1
  · have marked : ((s.setScanner { s.scanner with damage := true }).count .tornCandidates).scannedBy 16 = s.tornScan := by
      rw [State.tornScan, if_pos survey, decide_eq_true survey, Bool.or_true]
      rfl
    rw [State.torn_of_first survey, ← marked]
    exact State.advanceScan_eq (r := r) (by exact region) 16
  · have unmarked : s.scannedBy 16 = s.tornScan := by
      rw [State.tornScan, if_neg survey, decide_eq_false survey, Bool.or_false]
      rfl
    rw [State.torn_of_later survey, State.advanceScan_eq region, unmarked]

/-- The highest sequence after a record of the survey (R166). -/
theorem raiseHighest_spec (highest : Option Word) (seqNo : Word) :
    seqNo.toNat ≤ (raiseHighest highest seqNo).toNat ∧
      (∀ m, highest = some m → m.toNat ≤ (raiseHighest highest seqNo).toNat) ∧
      (raiseHighest highest seqNo = seqNo ∨ highest = some (raiseHighest highest seqNo)) := by
  cases highest with
  | none => exact ⟨Nat.le_refl _, nofun, .inl rfl⟩
  | some h =>
    simp only [raiseHighest, Option.some.injEq, forall_eq']
    split
    · next less => exact ⟨Nat.le_refl _, Nat.le_of_lt less, .inl rfl⟩
    · next most => exact ⟨Nat.not_lt.1 most, Nat.le_refl _, .inr rfl⟩

theorem State.chooses_iff (seqNo : Word) :
    s.chooses seqNo = true ↔ ∀ c, s.scanner.chosen = some c → seqNo.toNat < c.seqNo.toNat := by
  cases chosen : s.scanner.chosen <;> simp [State.chooses, chosen]

/-- The highest sequence after a valid record (R166). -/
def State.highestAfter (s : State) (seqNo : Word) : Option Word :=
  if s.scanner.pass = 1 then some (raiseHighest s.scanner.highest seqNo) else s.scanner.highest

/-- The chosen record after a valid one of `e` entries with these words (R166). -/
def State.chosenAfter (s : State) (e : Nat) (ws : List Word) : Option ChosenRecord :=
  if headerState (ws.getD 0 0) = liveByte ∧ s.chooses (ws.getD 1 0) then
    some { offset := s.scanner.offset, seqNo := ws.getD 1 0, count := e, origin := ws.getD 2 0,
           entries := recordEntries e ws }
  else s.scanner.chosen

theorem State.validRecord_eq (e : Nat) (ws : List Word) :
    s.validRecord e ws = (s.setScanner { s.scanner with
      highest := s.highestAfter (ws.getD 1 0), chosen := s.chosenAfter e ws }).advanceScan (placementSize e) := by
  have highest : (if s.inSurvey then some (raiseHighest s.scanner.highest (ws.getD 1 0)) else s.scanner.highest) =
      s.highestAfter (ws.getD 1 0) := by
    by_cases survey : s.scanner.pass = 1
    · rw [State.inSurvey_of_first survey, State.highestAfter, if_pos rfl, if_pos survey]
    · rw [State.inSurvey_of_later survey, State.highestAfter, if_neg Bool.false_ne_true, if_neg survey]
  rw [← highest]
  rfl

end

/-- Settles O45: the parity fault, then the record by its length, its validity, and what is chosen so far. -/
theorem recoveryJudgesACandidate : Obligations.RecoveryJudgesACandidate := by
  intro s word r header more region scanning buffer flying e ws read passed torn
  have ran := exec_recoveryReadCompletion scanning flying
  obtain ⟨faulty, clean⟩ := State.scanned_of_word (s := s.quiet.landed) buffer (s.mem.readWord word)
  have tears : s.quiet.landed.torn.settle = torn read := congrArg State.settle (State.torn_eq region)
  have judged : s.quiet.landed.judgeWord header (s.mem.readWord word) =
      if ws.length < 5 + 2 * e then s.quiet.landed.setScanner { s.scanner with buffer := ws }
      else if recordValid e ws then s.quiet.landed.validRecord e ws
      else s.quiet.landed.torn := rfl
  refine ⟨?parity, fun short => ?short, fun whole invalid => ?invalid, fun whole valid => ?valid⟩
  case parity =>
    rw [ran, faulty]
    by_cases survey : s.scanner.pass = 1
    · rw [State.surveyParity_of_first (s := s.quiet.landed) survey, if_pos survey]
      exact congrArg (fun x => Host.Outcome.next (State.settle x))
        (State.torn_eq (s := s.quiet.landed.noteParity) region)
    · rw [State.surveyParity_of_later (s := s.quiet.landed) survey, if_neg survey, tears]
  case short =>
    rw [ran, clean, judged, if_pos short]
    rfl
  case invalid =>
    rw [ran, clean, judged, if_neg (Nat.not_lt.2 whole), if_neg (Bool.eq_false_iff.1 invalid), tears]
  case valid =>
    have first : ws.getD 0 0 = header := by simp [ws, buffer]
    refine ⟨s.highestAfter (ws.getD 1 0), s.chosenAfter e ws, ?run, fun later => if_neg later, fun survey =>
      ⟨_, if_pos survey, raiseHighest_spec _ _⟩, fun live lowest => if_pos ⟨by rw [first]; exact live,
        (State.chooses_iff _).2 lowest⟩, fun other => if_neg ?other⟩
    case run =>
      rw [ran, clean, judged, if_neg (Nat.not_lt.2 whole), if_pos valid, State.validRecord_eq]
      exact congrArg (fun x => Host.Outcome.next (State.settle x))
        (State.advanceScan_eq (r := r) (by exact region) (placementSize e))
    case other =>
      rintro ⟨live, lowest⟩
      obtain retired | ⟨c, chosen, lower⟩ := other
      · rw [first] at live
        exact retired live
      · exact absurd ((State.chooses_iff _).1 lowest c chosen) (Nat.not_lt.2 lower)

/-! ### The end of a pass, and replay -/

/-- What replay passes over: the settled entries at the front, the damage note that of those inside the region (R167). -/
theorem skipUnwritten_spec (inside : Nat → Bool) (entries : List (Word × Word)) :
    ∃ skipped, entries = skipped ++ (skipUnwritten inside entries).1 ∧
      (∀ p ∈ skipped, entryMask p.1 = 0 ∨ inside (entryWord p.1).toNat = true) ∧
      (∀ p rest, (skipUnwritten inside entries).1 = p :: rest →
        entryMask p.1 ≠ 0 ∧ inside (entryWord p.1).toNat = false) ∧
      ((skipUnwritten inside entries).2 = true ↔ ∃ p ∈ skipped, inside (entryWord p.1).toNat = true) := by
  induction entries with
  | nil => exact ⟨[], rfl, nofun, nofun, by simp [skipUnwritten]⟩
  | cons p rest ih =>
    obtain ⟨a, d⟩ := p
    obtain ⟨skipped, split_, settled, next, note⟩ := ih
    cases region : inside (entryWord a).toNat with
    | true =>
      simp only [skipUnwritten, region, if_true]
      refine ⟨(a, d) :: skipped, congrArg _ split_, List.forall_mem_cons.2 ⟨.inr region, settled⟩, next, ?_⟩
      exact iff_of_true trivial ⟨_, List.mem_cons_self, region⟩
    | false =>
      by_cases empty : entryMask a = 0
      · simp only [skipUnwritten, region, empty, Bool.false_eq_true, if_true, if_false]
        refine ⟨(a, d) :: skipped, congrArg _ split_, List.forall_mem_cons.2 ⟨.inl empty, settled⟩, next, ?_⟩
        rw [note, List.exists_mem_cons_iff, region]
        exact (or_iff_right Bool.false_ne_true).symm
      · simp only [skipUnwritten, region, empty, Bool.false_eq_true, if_false]
        refine ⟨[], rfl, nofun, fun p rest h => ?_, by simp⟩
        obtain ⟨rfl, _⟩ := List.cons.inj h
        exact ⟨empty, region⟩

theorem State.endPass_of_chosen {s : State} {c : ChosenRecord} (chosen : s.scanner.chosen = some c) :
    s.endPass = s.replayFrom c.entries := by
  simp only [State.endPass, chosen]

theorem State.endPass_of_none {s : State} (none_ : s.scanner.chosen = none) : s.endPass = s.endRecovery := by
  simp only [State.endPass, none_]

/-- A home write of the replay has completed (R167). -/
theorem exec_replayWriteCompletion_of_home {s : State} {word : Addr} {mask : Mask} {data : Word} {p : Word × Word}
    {rest : List (Word × Word)}
    (flying : s.mp.inFlight = some { requester := .scanner, op := .write word mask data })
    (replaying : s.scanner.activity = .replaying (p :: rest)) :
    exec .replayWriteCompletion s = .next ((s.written word mask data).replayFrom rest).settle := by
  have flying' : s.quiet.mp.inFlight = some { requester := .scanner, op := .write word mask data } := flying
  simp only [exec, execReplayWriteCompletion, flying', State.quiet_scanner, replaying, State.completeOp_quiet flying]

/-- The header write of the replay has completed (R167). -/
theorem exec_replayWriteCompletion_of_header {s : State} {word : Addr} {mask : Mask} {data : Word} {c : ChosenRecord}
    (flying : s.mp.inFlight = some { requester := .scanner, op := .write word mask data })
    (replaying : s.scanner.activity = .replaying []) (chosen : s.scanner.chosen = some c) :
    exec .replayWriteCompletion s = .next ((s.written word mask data).replayed c).settle := by
  have flying' : s.quiet.mp.inFlight = some { requester := .scanner, op := .write word mask data } := flying
  simp only [exec, execReplayWriteCompletion, flying', State.quiet_scanner, replaying, chosen,
    State.completeOp_quiet flying]

/-- Settles O46: the end of a pass by the record chosen, the skipped entries by induction, replay by what is left. -/
theorem endOfAPassAndReplay : Obligations.EndOfAPassAndReplay := by
  refine ⟨fun s => ⟨fun c chosen => State.endPass_of_chosen chosen, fun none_ => ?ends⟩, skipUnwritten_spec,
    fun s word mask data flying => ⟨fun p rest replaying => exec_replayWriteCompletion_of_home flying replaying,
      fun c replaying chosen => ?header⟩⟩
  case header =>
    rw [exec_replayWriteCompletion_of_header flying replaying chosen]
    rfl
  case ends =>
    intro counter ended
    have counts : counterAfterRecovery s.scanner.highest = counter := by
      cases highest : s.scanner.highest <;> simp only [counter, highest] <;> rfl
    have recovered : s.afterRecovery (counterAfterRecovery s.scanner.highest) = ended := by
      rw [counts]
      rfl
    rw [State.endPass_of_none none_, State.endRecovery_eq, recovered]
    exact ⟨fun sound => if_neg (Bool.eq_false_iff.1 sound), fun damage => if_pos damage⟩

end Sys2Proof.Machine
end

section
/-! SUPPORT. The answers of the EEPROM: the end of a read, an acknowledge, the end of polling, and the failures
(R186 to R189). -/

namespace Sys2Proof.Machine

/-! ### The stored-guard operation's bytes -/

/-- The new flags byte differs from the old one in the stored guard alone (R188). -/
theorem formFlags_getLsbD (f : Byte) (v : Bool) {i : Nat} (h : i < 8) :
    (formFlags f v).getLsbD i = if i = 3 then v else f.getLsbD i := by
  have guardBit : storedGuardBit.getLsbD i = decide (i = 3) := by
    interval_cases i <;> rfl
  cases v with
  | true =>
    simp only [formFlags, if_true, BitVec.getLsbD_or, guardBit]
    by_cases at_ : i = 3 <;> simp [at_]
  | false =>
    simp only [formFlags, Bool.false_eq_true, if_false, BitVec.getLsbD_and, BitVec.getLsbD_not, guardBit, h]
    by_cases at_ : i = 3 <;> simp [at_]

/-- The new check byte keeps the sum (R188). -/
theorem formCheck_add (check f new : Byte) : formCheck check f new + new = check + f := by
  rw [formCheck, add_right_comm, sub_add_cancel]

/-! ### The polling window -/

/-- A tick does not move the cell that may yet take its byte. -/
theorem LinkOp.tick_unfinishedCell (op : LinkOp) : op.tick.unfinishedCell = op.unfinishedCell := by
  cases op with
  | write a d p => cases p <;> rfl
  | guardWriteFlags w v f c p => cases p <;> rfl
  | read | guardReadFlags | guardReadCheck | guardWriteCheck => rfl

section

variable (s : State)

/-- The operation that fails is over, wherever its timer stood (R186). -/
theorem State.failLinkOp_of_op (op : Option LinkOp) (cell : Option (Nat × Byte)) :
    State.failLinkOp (State.mayFinishCell { s with cl := { s.cl with op } } cell) =
      (s.mayFinishCell cell).failLinkOp := by
  cases cell <;> rfl

/-- A cell write that may yet finish, as the device decides. -/
theorem State.mayFinishCell_some (a : Nat) (b : Byte) :
    ∃ eeprom, (eeprom = s.eeprom ∨ eeprom = s.eeprom.set a b) ∧
      s.mayFinishCell (some (a, b)) = { s with eeprom, freeCount := s.freeCount + 1 } :=
  ⟨_, ite_eq_or_eq _ _ _ |>.symm, rfl⟩

end

section

variable {s : State} {op : LinkOp}

/-- The polling window runs out at this tick (R187). -/
theorem exec_pollingWindowExpiry_of_overdue (runs : s.cl.op = some op) (late : op.tick.overdue = true) :
    exec .pollingWindowExpiry s = .next (s.quiet.mayFinishCell op.unfinishedCell).failLinkOp := by
  simp only [exec, execPollingWindowExpiry, State.quiet_cl, runs, Option.map_some, Option.any_some, late, if_true,
    State.expirePolling, Option.bind_some, LinkOp.tick_unfinishedCell]
  exact congrArg Host.Outcome.next (s.quiet.failLinkOp_of_op _ _)

/-- An acknowledge behind the window ends the operation as its expiry does (R187). -/
theorem exec_acknowledgePollingEnd_of_overdue (runs : s.cl.op = some op) (late : op.overdue = true) :
    exec .acknowledgePollingEnd s = .next (s.quiet.mayFinishCell op.unfinishedCell).failLinkOp := by
  simp only [exec, execAcknowledgePollingEnd, State.quiet_cl, runs, Option.any_some, late, if_true,
    State.expirePolling, Option.bind_some]

/-- A poll acknowledged within the window (R187). -/
theorem exec_acknowledgePollingEnd_of_within (runs : s.cl.op = some op) (within : op.overdue = false) :
    exec .acknowledgePollingEnd s = .next s.quiet.linkPolled := by
  simp only [exec, execAcknowledgePollingEnd, State.quiet_cl, runs, Option.any_some, within, Bool.false_eq_true,
    if_false]

/-- An address or data byte that is not acknowledged ends the operation in error (R187). -/
theorem State.linkMissed_of_not_polling (runs : s.cl.op = some op) (notPolling : op.polledCell = none) :
    s.linkMissed = s.failLinkOp := by
  unfold State.linkMissed
  rw [runs]
  cases op with
  | read | guardReadFlags | guardReadCheck => rfl
  | write a d p | guardWriteFlags w v f c p | guardWriteCheck w v c p =>
    cases p with
    | sending => rfl
    | polling n => cases notPolling

end

theorem ByteWrite.overdue_of_lt {n : Nat} (within : n < 20000) : (ByteWrite.polling n).overdue = false :=
  decide_eq_false (Nat.not_le.2 within)

theorem ByteWrite.tick_overdue_of_le {n : Nat} (late : 20000 ≤ n + 1) : (ByteWrite.polling n).tick.overdue = true := by
  refine decide_eq_true ?_
  rw [advanceTimer, pollingWindow]
  split <;> omega

theorem ByteWrite.overdue_of_le {n : Nat} (late : 20000 ≤ n) : (ByteWrite.polling n).overdue = true :=
  decide_eq_true late

/-- The window runs out at a tick that reaches it, and for an acknowledge that comes behind it (R187). -/
theorem exec_of_late {s : State} {op : LinkOp} {c : Instr} {n : Nat}
    (late : (c = .pollingWindowExpiry ∧ 20000 ≤ n + 1) ∨ (c = .acknowledgePollingEnd ∧ 20000 ≤ n))
    (runs : s.cl.op = some op) (timer : op.overdue = (ByteWrite.polling n).overdue)
    (ticked : op.tick.overdue = (ByteWrite.polling n).tick.overdue) :
    exec c s = .next (s.quiet.mayFinishCell op.unfinishedCell).failLinkOp := by
  obtain ⟨rfl, late⟩ | ⟨rfl, late⟩ := late
  · exact exec_pollingWindowExpiry_of_overdue runs (ticked.trans (ByteWrite.tick_overdue_of_le late))
  · exact exec_acknowledgePollingEnd_of_overdue runs (timer.trans (ByteWrite.overdue_of_le late))

/-- Settles O47: each answer by the operation in progress; the failures by the cell that may yet take its byte. -/
theorem eepromAnswers : Obligations.EepromAnswers := by
  refine ⟨fun s => ⟨fun a op => ?read, fun w v op => ?flags, fun w v f op =>
      ⟨formFlags f v, formCheck (s.eeprom.get 15) f (formFlags f v), ?check,
      fun i h => formFlags_getLsbD f v h, formCheck_add _ _ _⟩⟩,
    fun s => ⟨fun a d op => ?ackWrite, fun w v f c op => ?ackFlags, fun w v c op => ?ackCheck⟩,
    fun s n within => ⟨fun a d op => ?endWrite, fun w v f c op => ?endFlags, fun w v c op => ?endCheck⟩,
    fun s op runs => ?fails⟩
  case read | flags | check =>
    show Host.Outcome.next s.quiet.linkRead = _
    simp only [State.linkRead, State.quiet_cl, op]
    rfl
  case ackWrite | ackFlags | ackCheck =>
    show Host.Outcome.next s.quiet.linkAcknowledged = _
    simp only [State.linkAcknowledged, State.quiet_cl, op]
    rfl
  case endWrite | endFlags | endCheck =>
    rw [exec_acknowledgePollingEnd_of_within op (ByteWrite.overdue_of_lt within)]
    simp only [State.linkPolled, State.quiet_cl, op]
    rfl
  case fails =>
    intro failed
    refine ⟨fun notPolling => ?_, fun c n late => ?_⟩
    · exact congrArg Host.Outcome.next (State.linkMissed_of_not_polling (s := s.quiet) runs notPolling)
    · refine ⟨fun a d h => ?_, fun w v f b h => ?_, fun w v b h => ?_⟩ <;> subst h
      · obtain ⟨eeprom, cell, finishes⟩ := s.quiet.mayFinishCell_some a.toNat d
        refine ⟨eeprom, cell, (exec_of_late late runs rfl rfl).trans ?_⟩
        exact congrArg (fun x => Host.Outcome.next (State.failLinkOp x)) finishes
      · obtain ⟨eeprom, cell, finishes⟩ := s.quiet.mayFinishCell_some (flagsAddr w) f
        refine ⟨eeprom, cell, (exec_of_late late runs rfl rfl).trans ?_⟩
        exact congrArg (fun x => Host.Outcome.next (State.failLinkOp x)) finishes
      · exact exec_of_late late runs rfl rfl

end Sys2Proof.Machine
end

section
/-! SUPPORT. The clock and its ticks, power-on reset and power loss, and the load of the image (R86, R147, R154 to R162,
R187, R189). -/

namespace Sys2Proof.Machine

/-! ### The tick of the Configuration Link -/

section

variable {s : State} {op : LinkOp}

/-- A tick does not move an operation that does not poll, and none such is overdue (R187). -/
theorem LinkOp.tick_of_not_polling (notPolling : op.polledCell = none) : op.tick = op ∧ op.overdue = false := by
  cases op with
  | read | guardReadFlags | guardReadCheck => exact ⟨rfl, rfl⟩
  | write a d p | guardWriteFlags w v f c p | guardWriteCheck w v c p =>
    cases p with
    | sending => exact ⟨rfl, rfl⟩
    | polling n => cases notPolling

theorem State.tickLink_of_idle (idle : s.cl.op = none) : s.tickLink = s := by
  have same : ({ s with cl := { s.cl with op := none } } : State) = s := by rw [← idle]
  simp only [State.tickLink, idle, Option.map_none, Option.any_none, Bool.false_eq_true, if_false]
  exact same

theorem State.tickLink_of_within (runs : s.cl.op = some op) (within : op.tick.overdue = false) :
    s.tickLink = { s with cl := { s.cl with op := some op.tick } } := by
  simp only [State.tickLink, runs, Option.map_some, Option.any_some, within, Bool.false_eq_true, if_false]

/-- The tick at which the window runs out ends the operation in error (R187). -/
theorem State.tickLink_of_overdue (runs : s.cl.op = some op) (late : op.tick.overdue = true) :
    s.tickLink = (s.mayFinishCell op.unfinishedCell).failLinkOp := by
  simp only [State.tickLink, runs, Option.map_some, Option.any_some, late, if_true, State.expirePolling,
    Option.bind_some, LinkOp.tick_unfinishedCell]
  exact s.failLinkOp_of_op _ _

theorem State.tickLink_of_not_polling (notPolling : s.cl.op.bind LinkOp.polledCell = none) : s.tickLink = s := by
  cases runs : s.cl.op with
  | none => exact State.tickLink_of_idle runs
  | some op =>
    rw [runs] at notPolling
    obtain ⟨same, notLate⟩ := LinkOp.tick_of_not_polling notPolling
    rw [State.tickLink_of_within runs (by rw [same]; exact notLate), same, ← runs]

end

theorem ByteWrite.tick_of_lt {n : Nat} (within : n + 1 < 20000) :
    (ByteWrite.polling n).tick = .polling (n + 1) ∧ (ByteWrite.polling n).tick.overdue = false := by
  have ticked : (ByteWrite.polling n).tick = .polling (n + 1) :=
    congrArg ByteWrite.polling (if_pos (Nat.lt_of_succ_lt within))
  exact ⟨ticked, by rw [ticked]; exact ByteWrite.overdue_of_lt within⟩

/-- Settles O3: the cycle by the divider's count, the link's tick by its operation and timer. -/
theorem clockAndTicks : Obligations.ClockAndTicks := by
  refine ⟨fun s queue => ?cycle, fun s => ⟨fun down => congrArg Host.Outcome.next (if_neg down),
    fun up => congrArg Host.Outcome.next (if_pos up)⟩, fun s => ?link⟩
  case cycle =>
    have cycle : step s = .next s.clockCycle := by rw [step, queue]
    rw [cycle]
    refine ⟨fun down => congrArg Host.Outcome.next (if_neg down), fun up counts => ?_, fun up full => ?_⟩
    · exact congrArg Host.Outcome.next ((if_pos up).trans (if_neg (Nat.not_le.2 counts)))
    · exact congrArg Host.Outcome.next (((if_pos up).trans (if_pos full)).trans (if_pos (c := s.power = .up) up).symm)
  case link =>
    intro polled failed
    refine ⟨State.tickLink_of_not_polling, fun a d n runs => ⟨fun within => ?_, fun late => ?_⟩,
      fun w v f c n runs => ⟨fun within => ?_, fun late => ?_⟩, fun w v c n runs => ⟨fun within => ?_, fun late =>
        State.tickLink_of_overdue runs (ByteWrite.tick_overdue_of_le late)⟩⟩
    · obtain ⟨ticked, notLate⟩ := ByteWrite.tick_of_lt within
      rw [State.tickLink_of_within runs notLate, LinkOp.tick, ticked]
    · obtain ⟨eeprom, cell, finishes⟩ := s.mayFinishCell_some a.toNat d
      exact ⟨eeprom, cell, (State.tickLink_of_overdue runs (ByteWrite.tick_overdue_of_le late)).trans
        (congrArg State.failLinkOp finishes)⟩
    · obtain ⟨ticked, notLate⟩ := ByteWrite.tick_of_lt within
      rw [State.tickLink_of_within runs notLate, LinkOp.tick, ticked]
    · obtain ⟨eeprom, cell, finishes⟩ := s.mayFinishCell_some (flagsAddr w) f
      exact ⟨eeprom, cell, (State.tickLink_of_overdue runs (ByteWrite.tick_overdue_of_le late)).trans
        (congrArg State.failLinkOp finishes)⟩
    · obtain ⟨ticked, notLate⟩ := ByteWrite.tick_of_lt within
      rw [State.tickLink_of_within runs notLate, LinkOp.tick, ticked]

/-! ### Power -/

section

variable {s : State}

/-- A RAM write cut short leaves its word whole old or whole new (R147). -/
theorem State.cutMemory_mem_of_write {r : Requester} {word : Addr} {mask : Mask} {data : Word}
    (flying : s.mp.inFlight = some { requester := r, op := .write word mask data }) :
    s.cutMemory.mem = s.mem ∨ s.cutMemory.mem = s.mem.writeWord word mask data := by
  simp only [State.cutMemory, flying]
  exact (ite_eq_or_eq _ _ _).symm

theorem State.cutMemory_of_no_write
    (no : ∀ r word mask data, s.mp.inFlight ≠ some { requester := r, op := .write word mask data }) :
    s.cutMemory = s := by
  cases flying : s.mp.inFlight with
  | none => simp only [State.cutMemory, flying]
  | some op =>
    obtain ⟨r, op⟩ := op
    cases op with
    | read word => simp only [State.cutMemory, flying]
    | write word mask data => exact absurd flying (no r word mask data)

/-- Power-on reset and power loss take the values of reset, the two memories cut (R157). -/
theorem exec_of_power {c : Instr} {p : Power} (power : (c = .powerOnReset ∧ p = .inReset) ∨ (c = .powerLoss ∧ p = .off)) :
    exec c s = .next (s.cutMemory.cutCell.powerOnValues p) := by
  obtain ⟨rfl, rfl⟩ | ⟨rfl, rfl⟩ := power <;> rfl

/-- Out of reset, and loading the image (R157). -/
def State.started (s : State) : State := { s.quiet with power := .up, op := .loading }

theorem exec_endOfPowerOnReset (inReset : s.power = .inReset) :
    exec .endOfPowerOnReset s =
      .next (if s.lines.pfail then (s.started.setFlag .powerWarn).warn else s.started) := by
  simp only [exec, execEndOfPowerOnReset, State.quiet_power, inReset]
  rfl

end

/-- Settles O5: the RAM and the EEPROM by what was in progress, all else from the reset values. -/
theorem powerAndReset : Obligations.PowerAndReset := by
  refine ⟨fun s c p power => ⟨_, exec_of_power power, ?fields, fun r word mask data flying => ?written,
    fun no => ?kept, fun a b polls => ?cell, fun idle => ?idle⟩, fun s inReset port held => ⟨fun low => ?low,
      fun high => ?high⟩⟩
  case fields =>
    obtain ⟨_, _, cut⟩ := s.cutMemory_eq
    obtain ⟨_, _, cell⟩ := s.cutMemory.cutCell_eq
    rw [cell, cut]
    rfl
  case written =>
    have mem : (s.cutMemory.cutCell.powerOnValues p).mem = s.cutMemory.mem := s.cutMemory.cutCell_mem
    rw [mem]
    exact State.cutMemory_mem_of_write flying
  case kept =>
    have mem : (s.cutMemory.cutCell.powerOnValues p).mem = s.cutMemory.mem := s.cutMemory.cutCell_mem
    rw [mem, State.cutMemory_of_no_write no]
  case cell =>
    have cut : s.cutMemory.cutCell = s.cutMemory.mayFinishCell (some (a, b)) := by
      rw [State.cutCell, State.cutMemory_cl, polls]
    have result := s.cutMemory.mayFinishCell_eeprom a b
    rw [← cut, State.cutMemory_eeprom] at result
    exact result
  case idle =>
    have cut : s.cutMemory.cutCell = s.cutMemory := by
      rw [State.cutCell, State.cutMemory_cl, idle, State.mayFinishCell_none]
    rw [cut]
    exact s.cutMemory_eeprom
  case low =>
    rw [exec_endOfPowerOnReset inReset, low]
    rfl
  case high =>
    have active : (s.started.setFlag .powerWarn).mp = State.reset.mp := port
    have warns : (s.started.setFlag .powerWarn).warn = (s.started.setFlag .powerWarn).enterQuiesced :=
      State.warn_of_idle (by rw [active]; rfl) (by rw [active]; rfl) (by rw [active]; rfl)
    rw [exec_endOfPowerOnReset inReset, high, if_pos rfl, warns,
      State.enterQuiesced_of_kept (s := s.started.setFlag .powerWarn) (.inl held)]
    rfl

/-! ### The load -/

/-- Settles O6: the load by the image's validity. -/
theorem loadInstallsOrFails : Obligations.LoadInstallsOrFails := by
  refine ⟨fun s up loading valid => ?_, fun s acknowledged up loading fails => ?_⟩
  · have installs : exec (.endOfLoad true) s = .next s.quiet.install.grant :=
      congrArg Host.Outcome.next ((if_pos ⟨up, loading⟩).trans (if_pos valid))
    rw [installs]
    rfl
  · have failed : (acknowledged && s.quiet.imageValid) = false := by
      obtain rfl | invalid := fails
      · rfl
      · exact (congrArg (acknowledged && ·) invalid).trans (Bool.and_false _)
    have ran : exec (.endOfLoad acknowledged) s = .next s.quiet.failLoad :=
      congrArg Host.Outcome.next ((if_pos ⟨up, loading⟩).trans (if_neg (Bool.eq_false_iff.1 failed)))
    refine ⟨_, ran, rfl, fun i => ?_, rfl, ?_, fun f other => ?_⟩
    · simp [State.failLoad]
    · rw [State.failLoad, State.setFlag_flag]
      simp
    · rw [State.failLoad, State.setFlag_flag, decide_eq_false (Ne.symm other), Bool.false_or]
      rfl

end Sys2Proof.Machine
end

section
/-! SUPPORT. The tests of the image, and the Window Table: what a lookup finds and where it leads (R8 to R13, R18, R159,
R160, R192). -/

namespace Sys2Proof.Machine

/-! ### The sum of the image -/

theorem foldl_add_toNat (l : List Byte) (c : Byte) :
    (l.foldl (· + ·) c).toNat = (c.toNat + (l.map BitVec.toNat).sum) % 256 := by
  induction l generalizing c with
  | nil => simpa using (Nat.mod_eq_of_lt c.isLt).symm
  | cons b l ih =>
    rw [List.foldl_cons, ih, BitVec.toNat_add, List.map_cons, List.sum_cons, Nat.mod_add_mod, Nat.add_assoc]

/-- The sum of the image's bytes as numbers. -/
def State.imageTotal (s : State) : Nat := ((List.range 72).map fun i => (s.eeprom.get i).toNat).sum

theorem State.imageSum_eq_zero_iff (s : State) : s.imageSum = 0 ↔ s.imageTotal % 256 = 0 := by
  have sum : s.imageSum.toNat = s.imageTotal % 256 := by
    rw [State.imageSum, foldl_add_toNat, List.map_map, show BitVec.toNat (0 : Byte) = 0 from rfl, Nat.zero_add]
    rfl
  rw [← sum]
  exact ⟨fun h => by rw [h]; rfl, fun h => BitVec.eq_of_toNat_eq h⟩

/-- A byte of the image, and the sum of the others. -/
theorem State.imageTotal_eq (s : State) {i : Nat} (h : i < 72) :
    s.imageTotal = (s.eeprom.get i).toNat + ∑ k ∈ (Finset.range 72).erase i, (s.eeprom.get k).toNat :=
  (Finset.add_sum_erase (Finset.range 72) (fun k => (s.eeprom.get k).toNat) (Finset.mem_range.2 h)).symm

/-! ### The windows of the image -/

/-- The tests of one window's pages (R159). -/
theorem Window.pagesAndRegion_iff (w : Window) (r : Region) :
    w.pagesValid = true ∧ w.apartFrom r = true ↔ (w.present = true →
      w.base ≤ w.limit ∧ w.limit ≤ 4095 ∧ w.target + (w.limit - w.base) ≤ 4095 ∧
      (4096 * (w.target + (w.limit - w.base) + 1) ≤ r.base ∨ r.base + r.size ≤ 4096 * w.target)) := by
  cases present : w.present with
  | false => simp [Window.pagesValid, Window.apartFrom, present]
  | true =>
    simp only [Window.pagesValid, Window.apartFrom, present, Bool.not_true, Bool.false_or, Bool.and_eq_true,
      Bool.or_eq_true, decide_eq_true_eq, forall_const]
    omega

/-- Two present windows are apart, upstream and in memory. -/
def Window.Apart (v w : Window) : Prop :=
  v.present = true → w.present = true →
    (v.limit < w.base ∨ w.limit < v.base) ∧
    (v.target + (v.limit - v.base) < w.target ∨ w.target + (w.limit - w.base) < v.target)

theorem Window.Apart.symm {v w : Window} (h : v.Apart w) : w.Apart v := fun hw hv => by
  obtain ⟨upstream, targets⟩ := h hv hw
  exact ⟨upstream.symm, targets.symm⟩

/-- The tests of two windows (R159). -/
theorem Window.apart_iff (v w : Window) : v.upstreamApart w = true ∧ v.targetsApart w = true ↔ v.Apart w := by
  cases hv : v.present <;> cases hw : w.present <;>
    simp [Window.upstreamApart, Window.targetsApart, Window.Apart, hv, hw]

/-- The test of each pair once is that of every pair. -/
theorem apart_pairs_iff (w : WindowId → Window) :
    (∀ i j, j ≤ i ∨ (w i).Apart (w j)) ↔ ∀ i j, i ≠ j → (w i).Apart (w j) := by
  refine ⟨fun h i j ne => ?_, fun h i j => ?_⟩
  · obtain less | less := lt_or_gt_of_ne ne
    · exact (h i j).resolve_left (not_le.2 less)
    · exact ((h j i).resolve_left (not_le.2 less)).symm
  · by_cases le : j ≤ i
    · exact .inl le
    · exact .inr (h i j fun e => le (e ▸ le_refl _))

/-- The tests of R159, R160 on the image. -/
theorem State.imageValid_iff (s : State) : s.imageValid = true ↔
    s.imageByte 0 = 0x6A ∧ s.imageByte 1 = 0x4B ∧ s.imageByte 2 = 0x01 ∧ s.imageByte 3 = 72 ∧ s.imageSum = 0 ∧
    16 ≤ s.imageHoldLimit ∧ 16 ≤ s.imageCollectLimit ∧ 4 ≤ s.imageTwo 11 ∧ s.imageTwo 11 ≤ 256 ∧
    s.imageRegion.base + s.imageRegion.size ≤ 16777216 ∧
    (∀ i : WindowId, (s.imageWindow i false).pagesValid = true ∧
      (s.imageWindow i false).apartFrom s.imageRegion = true) ∧
    ∀ i j : WindowId, i ≠ j → (s.imageWindow i false).Apart (s.imageWindow j false) := by
  rw [← apart_pairs_iff]
  simp only [State.imageValid, Bool.and_eq_true, List.all_eq_true,
    List.mem_finRange, forall_true_left, Bool.or_eq_true, decide_eq_true_eq, Window.apart_iff, and_assoc]

/-! ### The sum of the image and its tests -/

theorem State.imageSum_of_valid {s : State} (valid : s.imageValid = true) : s.imageTotal % 256 = 0 := by
  obtain ⟨_, _, _, _, sum, _⟩ := s.imageValid_iff.1 valid
  exact s.imageSum_eq_zero_iff.1 sum

/-- One byte changed changes the sum, so the image is no longer valid (R160). -/
theorem State.imageValid_set {s : State} {i : Nat} {b : Byte} (wf : s.eeprom.wf = true) (valid : s.imageValid = true)
    (h : i < 72) (changed : b ≠ s.imageByte i) :
    State.imageValid { s with eeprom := s.eeprom.set i b } = false := by
  refine Bool.eq_false_iff.2 fun stillValid => changed ?_
  have before := State.imageSum_of_valid valid
  have after := State.imageSum_of_valid stillValid
  rw [State.imageTotal_eq _ h] at before after
  have others : ∑ k ∈ (Finset.range 72).erase i, ((s.eeprom.set i b).get k).toNat =
      ∑ k ∈ (Finset.range 72).erase i, (s.eeprom.get k).toNat :=
    Finset.sum_congr rfl fun k hk => by rw [Memory.get_set wf, if_neg (Finset.ne_of_mem_erase hk)]
  rw [others, Memory.get_set wf, if_pos rfl] at after
  have old := (s.eeprom.get i).isLt
  have new := b.isLt
  exact BitVec.eq_of_toNat_eq (show b.toNat = (s.eeprom.get i).toNat by omega)

theorem byte_eq_iff (b : Byte) {n : Nat} (h : n < 256) : b = BitVec.ofNat 8 n ↔ b.toNat = n := by
  rw [← BitVec.toNat_inj, BitVec.toNat_ofNat, Nat.mod_eq_of_lt h]

/-- Settles O7: the tests one by one; a changed byte by the sum. -/
theorem imageTests : Obligations.ImageTests := by
  refine ⟨fun s => ⟨?tests, fun i g => ⟨fun present => ?present, fun absent => ?absent⟩⟩, fun s i b wf valid h changed =>
    State.imageValid_set wf valid h changed⟩
  case tests =>
    refine s.imageValid_iff.trans (and_congr (byte_eq_iff _ (n := 0x6A) (by decide))
      (and_congr (byte_eq_iff _ (n := 0x4B) (by decide)) (and_congr (byte_eq_iff _ (n := 0x01) (by decide))
        (and_congr (byte_eq_iff _ (n := 72) (by decide)) (and_congr s.imageSum_eq_zero_iff ?_)))))
    simp only [Window.pagesAndRegion_iff]
    rfl
  case present =>
    rw [show 18 + 7 * i.val = 16 + 7 * i.val + 2 by omega, show 20 + 7 * i.val = 16 + 7 * i.val + 4 by omega]
    exact if_pos present
  case absent =>
    rw [show s.imageWindow i g = { Window.empty with runtimeGuard := g } from if_neg (Bool.eq_false_iff.1 absent)]
    exact ⟨rfl, rfl⟩

end Sys2Proof.Machine
end

section
/-! SUPPORT. The Window Table: what a lookup finds, where a translated address lies, and that no two visible addresses
reach one memory word (R8, R10 to R13, R18). -/

namespace Sys2Proof.Machine

/-! ### Windows and pages -/

theorem Window.contains_iff (w : Window) (page : Nat) :
    w.contains page = true ↔ w.present = true ∧ w.base ≤ page ∧ page ≤ w.limit := by
  simp only [Window.contains, Bool.and_eq_true, decide_eq_true_eq, and_assoc]

theorem Window.targets_iff (w : Window) (page : Nat) :
    w.targets page = true ↔ w.present = true ∧ w.target ≤ page ∧ page ≤ w.target + (w.limit - w.base) := by
  simp only [Window.targets, Bool.and_eq_true, decide_eq_true_eq, and_assoc]

section

variable (s : State)

theorem State.findWindow_eq_none_iff (page : Nat) : s.findWindow page = none ↔
    ∀ i : WindowId, s.windows[i].present = true → page < s.windows[i].base ∨ s.windows[i].limit < page := by
  rw [State.findWindow, List.find?_eq_none]
  refine ⟨fun h i present => ?_, fun h i _ inside => ?_⟩
  · have outside := h i (List.mem_finRange i)
    rw [Window.contains_iff] at outside
    by_contra inside
    exact outside ⟨present, by omega, by omega⟩
  · obtain ⟨present, above, below⟩ := (Window.contains_iff _ _).1 inside
    have := h i present
    omega

theorem State.shadowed_iff (page : Nat) : s.shadowed page = true ↔
    ∃ i : WindowId, s.windows[i].present = true ∧ s.windows[i].target ≤ page ∧
      page ≤ s.windows[i].target + (s.windows[i].limit - s.windows[i].base) := by
  simp only [State.shadowed, List.any_eq_true, List.mem_finRange, true_and, Window.targets_iff]

theorem State.inRegion_iff (a : Nat) :
    s.inRegion a = true ↔ ∃ r : Region, s.region = some r ∧ r.base ≤ a ∧ a < r.base + r.size := by
  cases region : s.region <;> simp [State.inRegion, region, Region.contains]

end

section

variable {s : State} {a : Addr}

theorem State.findWindow_spec {page : Nat} {i : WindowId} (found : s.findWindow page = some i) :
    s.windows[i].present = true ∧ s.windows[i].base ≤ page ∧ page ≤ s.windows[i].limit :=
  (Window.contains_iff _ _).1 (List.find?_some (p := fun i : WindowId => s.windows[i].contains page) found)

/-! ### The lookup -/

/-- What a lookup in window `i` answers (R11, R18). -/
def State.lookupIn (s : State) (a : Addr) (i : WindowId) : Lookup :=
  { word := s.windows[i].translate a, window := some i, grouped := s.windows[i].grouped, loose := s.windows[i].loose,
    combine := s.windows[i].combine, guarded := s.windows[i].guarded s.lines.guard, hidden := false }

/-- What the lookup of an identity address answers (R12, R13). -/
def State.lookupIdentity (s : State) (a : Addr) : Lookup :=
  { word := a, window := none, grouped := false, loose := true, combine := false, guarded := false,
    hidden := s.inRegion a.toNat || s.shadowed (a.toNat / 4096) }

/-- A lookup finds a window that contains the page, or the address is an identity address. -/
theorem State.lookup_cases (s : State) (a : Addr) :
    (∃ i, s.findWindow (a.toNat / 4096) = some i ∧ s.lookup a = s.lookupIn a i) ∨
      (s.findWindow (a.toNat / 4096) = none ∧ s.lookup a = s.lookupIdentity a) := by
  cases found : s.findWindow (a.toNat / 4096) with
  | some i => exact .inl ⟨i, rfl, by simp only [State.lookup, found]; rfl⟩
  | none => exact .inr ⟨rfl, by simp only [State.lookup, found]; rfl⟩

theorem State.lookup_of_window {i : WindowId} (window : (s.lookup a).window = some i) :
    s.findWindow (a.toNat / 4096) = some i ∧ s.lookup a = s.lookupIn a i := by
  obtain ⟨j, found, is⟩ | ⟨_, is⟩ := s.lookup_cases a
  · rw [is] at window
    obtain rfl : j = i := Option.some.inj window
    exact ⟨found, is⟩
  · rw [is] at window
    cases window

theorem State.lookup_of_no_window (window : (s.lookup a).window = none) :
    s.findWindow (a.toNat / 4096) = none ∧ s.lookup a = s.lookupIdentity a := by
  obtain ⟨j, found, is⟩ | is := s.lookup_cases a
  · rw [is] at window
    cases window
  · exact is

/-- In a sound table a translated address is in its window's target range, at the same place of its page (R10, R11). -/
theorem TableSound.translate (sound : TableSound s) {i : WindowId} (found : s.findWindow (a.toNat / 4096) = some i) :
    (s.windows[i].translate a).toNat = a.toNat - 4096 * s.windows[i].base + 4096 * s.windows[i].target := by
  obtain ⟨present, above, below⟩ := State.findWindow_spec found
  obtain ⟨order, limit, target, _⟩ := sound.1 i present
  rw [Window.translate, BitVec.toNat_ofNat]
  exact Nat.mod_eq_of_lt (by omega)

/-- The page of a translated address is one of its window's targets (R8). -/
theorem TableSound.translate_page (sound : TableSound s) {i : WindowId}
    (found : s.findWindow (a.toNat / 4096) = some i) :
    s.windows[i].present = true ∧ s.windows[i].target ≤ (s.windows[i].translate a).toNat / 4096 ∧
      (s.windows[i].translate a).toNat / 4096 ≤ s.windows[i].target + (s.windows[i].limit - s.windows[i].base) := by
  obtain ⟨present, above, below⟩ := State.findWindow_spec found
  rw [sound.translate found]
  exact ⟨present, by omega, by omega⟩

/-- A translated address is not in the journal region (R10). -/
theorem TableSound.translate_outside (sound : TableSound s) {i : WindowId}
    (found : s.findWindow (a.toNat / 4096) = some i) : s.inRegion (s.windows[i].translate a).toNat = false := by
  obtain ⟨present, first, last⟩ := sound.translate_page found
  obtain ⟨_, _, _, r, region, apart⟩ := sound.1 i present
  refine Bool.eq_false_iff.2 fun inside => ?_
  obtain ⟨r', region', above, below⟩ := (s.inRegion_iff _).1 inside
  obtain rfl : r = r' := Option.some.inj (region.symm.trans region')
  omega

/-- No identity address that is not hidden reaches a word that a window translates to (R13). -/
theorem TableSound.identity_not_translated (sound : TableSound s) {b : Addr} {i : WindowId}
    (found : s.findWindow (a.toNat / 4096) = some i) (visible : (s.lookupIdentity b).hidden = false) :
    s.windows[i].translate a ≠ b := by
  rintro rfl
  have shadowed := (s.shadowed_iff _).2 ⟨i, sound.translate_page found⟩
  rw [State.lookupIdentity, Bool.or_eq_false_iff, shadowed] at visible
  exact Bool.noConfusion visible.2

/-- Two translated addresses that reach one word are one address (R10). -/
theorem TableSound.translate_inj (sound : TableSound s) {b : Addr} {i j : WindowId}
    (foundA : s.findWindow (a.toNat / 4096) = some i) (foundB : s.findWindow (b.toNat / 4096) = some j)
    (same : s.windows[i].translate a = s.windows[j].translate b) : a = b := by
  have wordA := sound.translate foundA
  have wordB := sound.translate foundB
  have pageA := sound.translate_page foundA
  have pageB := sound.translate_page foundB
  obtain ⟨presentA, aboveA, _⟩ := State.findWindow_spec foundA
  obtain ⟨presentB, aboveB, _⟩ := State.findWindow_spec foundB
  by_cases one : i = j
  · subst one
    rw [same] at wordA
    exact BitVec.eq_of_toNat_eq (by omega)
  · obtain ⟨_, apart⟩ := sound.2 i j one presentA presentB
    rw [same] at pageA
    omega

end

/-- Settles O8: the two addresses by the windows that they lie in; the lookup by the window found. -/
theorem oneUpstreamNameForEachWord : Obligations.OneUpstreamNameForEachWord := by
  refine ⟨fun s sound => ⟨fun a b visibleA visibleB same => ?one, fun a i window => ?translated⟩,
    fun s a => ⟨fun i => rfl, fun i window => ?attributes, ?found, fun window => ?identity⟩⟩
  case one =>
    obtain ⟨i, foundA, isA⟩ | ⟨_, isA⟩ := s.lookup_cases a <;>
      obtain ⟨j, foundB, isB⟩ | ⟨_, isB⟩ := s.lookup_cases b <;> rw [isA, isB] at same <;>
      rw [isA] at visibleA <;> rw [isB] at visibleB
    · exact sound.translate_inj foundA foundB same
    · exact absurd same (sound.identity_not_translated foundA visibleB)
    · exact absurd same.symm (sound.identity_not_translated foundB visibleA)
    · exact same
  case translated =>
    obtain ⟨found, is⟩ := State.lookup_of_window window
    rw [is]
    exact ⟨rfl, sound.translate_outside found, sound.translate found⟩
  case attributes =>
    obtain ⟨found, is⟩ := State.lookup_of_window window
    obtain ⟨present, above, below⟩ := State.findWindow_spec found
    rw [is]
    exact ⟨present, above, below, rfl, rfl, rfl, rfl, rfl⟩
  case found =>
    rw [← State.findWindow_eq_none_iff]
    obtain ⟨i, found, is⟩ | ⟨found, is⟩ := s.lookup_cases a <;> rw [found, is]
    · exact ⟨nofun, nofun⟩
    · exact ⟨fun _ => rfl, fun _ => rfl⟩
  case identity =>
    obtain ⟨_, is⟩ := State.lookup_of_no_window window
    rw [is]
    refine ⟨rfl, rfl, rfl, rfl, rfl, ?_⟩
    rw [State.lookupIdentity, Bool.or_eq_true, State.inRegion_iff, State.shadowed_iff]

end Sys2Proof.Machine
end

section
/-! SUPPORT. The words of a record: the fields of its header, origin and entry address words, and the record read back
(R112 to R114, R165, R167). -/

namespace Sys2Proof.Machine

/-! ### The fields of a word -/

theorem headerMarker_headerWord (state : Byte) (n : Nat) : headerMarker (headerWord state n) = recordMarker :=
  (BitVec.extractLsb'_append_eq_of_le (xhi := recordMarker ++ state) (by decide : 8 ≤ 16)).trans
    BitVec.extractLsb'_append_eq_left

theorem headerState_headerWord (state : Byte) (n : Nat) : headerState (headerWord state n) = state :=
  (BitVec.extractLsb'_append_eq_of_le (xhi := recordMarker ++ state) (by decide : 8 ≤ 8)).trans
    BitVec.extractLsb'_append_eq_right

theorem headerWord_low (state : Byte) (n : Nat) : (headerWord state n).extractLsb' 0 8 = BitVec.ofNat 8 n :=
  BitVec.extractLsb'_append_eq_right (a := recordMarker ++ state)

theorem headerCount_headerWord (state : Byte) {n : Nat} (small : n < 256) : headerCount (headerWord state n) = n := by
  rw [headerCount, headerWord_low, BitVec.toNat_ofNat, Nat.mod_eq_of_lt small]

/-- A header read as LIVE keeps its marker and count (R114). -/
theorem headerAsLive_headerWord (state : Byte) (n : Nat) :
    headerAsLive (headerWord state n) = headerWord liveByte n := by
  have marker : (headerWord state n).extractLsb' 16 16 = recordMarker := headerMarker_headerWord state n
  rw [headerAsLive, marker, headerWord_low]
  rfl

theorem extractLsb'_ofNat_low {v w : Nat} (h : w ≤ v) (n : Nat) :
    (BitVec.ofNat v n).extractLsb' 0 w = BitVec.ofNat w n := by
  rw [← BitVec.setWidth_eq_extractLsb' h, BitVec.setWidth_ofNat_of_le h]

theorem originSlot_originWord (declared window : Nat) (k : SlotId) (owner : Source) :
    originSlot (originWord declared window k owner) = k := by
  have bits : (originWord declared window k owner).extractLsb' 8 2 = BitVec.ofNat 2 k.val :=
    ((BitVec.extractLsb'_append_eq_of_le (by decide : 8 ≤ 8)).trans
      (BitVec.extractLsb'_append_eq_of_add_le (by decide : 0 + 2 ≤ 8))).trans (extractLsb'_ofNat_low (by decide) _)
  rw [originSlot, bits]
  exact Fin.ext (Nat.mod_eq_of_lt k.isLt)

theorem originSource_originWord (declared window : Nat) (k : SlotId) (owner : Source) :
    originSource (originWord declared window k owner) = owner := by
  have bits : (originWord declared window k owner).extractLsb' 0 4 = BitVec.ofNat 4 owner.val :=
    (BitVec.extractLsb'_append_eq_of_add_le (by decide : 0 + 4 ≤ 8)).trans (extractLsb'_ofNat_low (by decide) _)
  rw [originSource, bits]
  exact Fin.ext (Nat.mod_eq_of_lt owner.isLt)

theorem entryMask_entryAddrWord (mask : Mask) (word : Addr) : entryMask (entryAddrWord mask word) = mask :=
  ((BitVec.extractLsb'_append_eq_of_le (by decide : 2 ≤ 28)).trans
    (BitVec.extractLsb'_append_eq_of_le (by decide : 22 ≤ 26))).trans BitVec.extractLsb'_append_eq_left

/-- The memory word of an entry address word, for a word address (R112). -/
theorem entryWord_entryAddrWord (mask : Mask) {word : Addr} (aligned : word.toNat % 4 = 0) :
    entryWord (entryAddrWord mask word) = word := by
  have high : (entryAddrWord mask word).extractLsb' 2 22 = word.extractLsb' 2 22 :=
    (BitVec.extractLsb'_append_eq_of_le (by decide : 2 ≤ 2)).trans BitVec.extractLsb'_append_eq_right
  have low : (0 : BitVec 2) = word.extractLsb' 0 2 := by
    apply BitVec.eq_of_toNat_eq
    rw [BitVec.extractLsb'_toNat]
    exact aligned.symm
  rw [entryWord, high, low]
  exact (BitVec.extractLsb'_append_extractLsb'_eq_extractLsb' rfl).trans BitVec.extractLsb'_eq_self

/-! ### The words of the entries -/

/-- The two words of an entry (R112). -/
def StagingEntry.words (e : StagingEntry) : List Word := [entryAddrWord e.mask e.word, e.data]

theorem flatMap_words_length (l : List StagingEntry) : (l.flatMap StagingEntry.words).length = 2 * l.length := by
  induction l with
  | nil => rfl
  | cons e l ih =>
    rw [List.flatMap_cons, List.length_append, ih, StagingEntry.words, List.length_cons]
    simp only [List.length_cons, List.length_nil]
    omega

/-- The words of the entries, read in pairs. -/
theorem pairs_of_words (l : List StagingEntry) (rest : List Word) :
    (List.range l.length).map (fun k => ((l.flatMap StagingEntry.words ++ rest).getD (2 * k) 0,
      (l.flatMap StagingEntry.words ++ rest).getD (2 * k + 1) 0)) =
    l.map fun e => (entryAddrWord e.mask e.word, e.data) := by
  induction l with
  | nil => rfl
  | cons e l ih =>
    rw [List.length_cons, List.range_succ_eq_map, List.map_cons, List.map_map, List.map_cons, ← ih]
    refine congrArg₂ List.cons rfl (List.map_congr_left fun k _ => ?_)
    simp only [Function.comp, Nat.mul_succ, List.flatMap_cons, StagingEntry.words, List.cons_append, List.nil_append,
      List.getD_cons_succ]

/-! ### A record -/

/-- The words of a record of list `l`, check and seal words last (R112, R114). -/
def recordOf (seqNo origin : Word) (l : List StagingEntry) : List Word :=
  headerWord liveByte l.length :: seqNo :: origin ::
    (l.flatMap StagingEntry.words ++
      [checkWord (headerWord liveByte l.length :: seqNo :: origin :: l.flatMap StagingEntry.words), ~~~ seqNo])

theorem State.recordWords_eq (s : State) (k : SlotId) (seqNo : Word) : s.recordWords k seqNo =
    recordOf seqNo (originWord ((s.slot k).declared.getD 0) (((s.slot k).window.map Fin.val).getD 0) k
      ((s.slot k).owner.getD 0)) (s.stagedList k) := rfl

section

variable (seqNo origin : Word) (l : List StagingEntry)

theorem recordOf_length : (recordOf seqNo origin l).length = 5 + 2 * l.length := by
  simp only [recordOf, List.length_cons, List.length_append, flatMap_words_length, List.length_nil]
  omega

/-- A whole record is judged by its check word and its seal word (R114, R165). -/
theorem recordValid_iff {e : Nat} {ws : List Word} : recordValid e ws = true ↔ ws.length = 5 + 2 * e ∧
    ws.getD (3 + 2 * e) 0 = checkWord (headerAsLive (ws.getD 0 0) :: (ws.take (3 + 2 * e)).drop 1) ∧
    ws.getD (4 + 2 * e) 0 = ~~~ ws.getD 1 0 := by
  simp only [recordValid, Bool.and_eq_true, decide_eq_true_eq, and_assoc]

/-- The record's words pass the tests of recovery, with any header that is LIVE's when taken as LIVE (R114, R165). -/
theorem recordValid_recordOf {header : Word} (live : headerAsLive header = headerWord liveByte l.length) :
    recordValid l.length ((recordOf seqNo origin l).set 0 header) = true := by
  have body := flatMap_words_length l
  have check : 3 + 2 * l.length = (l.flatMap StagingEntry.words).length + 3 := by omega
  have last : 4 + 2 * l.length = (l.flatMap StagingEntry.words).length + 1 + 3 := by omega
  refine recordValid_iff.2 ⟨by rw [List.length_set, recordOf_length], ?_, ?_⟩
  · simp only [recordOf, List.set_cons_zero, check, List.getD_cons_succ, List.getD_cons_zero, live, List.take_succ_cons,
      List.drop_succ_cons, List.drop_zero, List.take_left]
    rw [List.getD_append_right _ _ _ _ (le_refl _), Nat.sub_self, List.getD_cons_zero]
  · simp only [recordOf, List.set_cons_zero, last, List.getD_cons_succ, List.getD_cons_zero]
    rw [List.getD_append_right _ _ _ _ (Nat.le_add_right _ 1), Nat.add_sub_cancel_left]
    rfl

/-- Another seal word makes the record invalid (R114). -/
theorem recordValid_other_seal {w : Word} (other : w ≠ ~~~ seqNo) :
    recordValid l.length ((recordOf seqNo origin l).set (4 + 2 * l.length) w) = false := by
  refine Bool.eq_false_iff.2 fun valid => other ?_
  obtain ⟨length, _, last⟩ := recordValid_iff.1 valid
  have inside : 4 + 2 * l.length < (recordOf seqNo origin l).length := by
    rw [recordOf_length]
    omega
  have number : ((recordOf seqNo origin l).set (4 + 2 * l.length) w).getD 1 0 = seqNo := by
    simp only [List.getD_eq_getElem?_getD, List.getElem?_set_ne (show 4 + 2 * l.length ≠ 1 by omega)]
    rfl
  rw [number, List.getD_eq_getElem?_getD, List.getElem?_set_self inside, Option.getD_some] at last
  exact last

/-- What recovery reads back: the entries' words (R112). -/
theorem recordEntries_recordOf :
    recordEntries l.length (recordOf seqNo origin l) = l.map fun e => (entryAddrWord e.mask e.word, e.data) := by
  rw [recordEntries, ← pairs_of_words]
  refine List.map_congr_left fun k _ => ?_
  simp only [recordOf, show 3 + 2 * k = 2 * k + 3 by omega, show 4 + 2 * k = 2 * k + 1 + 3 by omega,
    List.getD_cons_succ]
  rfl

end

/-- Settles O38: the record's words one by one, its tests, and its entries read in pairs. -/
theorem recordIsReadBackAsWritten : Obligations.RecordIsReadBackAsWritten := by
  intro s k seqNo owner owned some_ bounded aligned e ws
  have words : ws = recordOf seqNo _ (s.stagedList k) := s.recordWords_eq k seqNo
  have live := headerAsLive_headerWord liveByte e
  have length : ws.length = 5 + 2 * e := by rw [words, recordOf_length]
  have small : e < 256 := by omega
  refine ⟨length, rfl, headerMarker_headerWord liveByte e, headerState_headerWord liveByte e,
    headerCount_headerWord liveByte small, ?_, ?_, fun w other => ?_, ?_, ?_, ?_, ?_, ?_, ?_⟩
  · exact recordValid_recordOf seqNo _ _ live
  · exact recordValid_recordOf seqNo _ _ (headerAsLive_headerWord retiredByte e)
  · exact recordValid_other_seal seqNo _ _ other
  · rw [words, recordEntries_recordOf, List.map_map]
    refine List.map_congr_left fun x hx => ?_
    simp only [Function.comp, entryMask_entryAddrWord, entryWord_entryAddrWord _ (aligned x hx)]
  · exact originSlot_originWord _ _ k _
  · refine (originSource_originWord _ _ k _).trans ?_
    rw [owned, Option.getD_some]
  · rw [length, placementSize]
    omega
  · rw [length, placementSize]
    omega
  · rw [placementSize]
    omega

end Sys2Proof.Machine
end

section
/-! SUPPORT. The timers: what the expiries of holds and notices at a tick change together, in whatever order they come,
and the expiry commands (R38, R70, R75, R76, R84, R86). -/

namespace Sys2Proof.Machine

/-! ### Expiries of holds, one after the other -/

/-- A slot whose group was aborted with cause CONFLICT (R38). -/
def Slot.inConflict (x : Slot) : Slot :=
  { Slot.empty with state := .aborted, owner := x.owner, cause := some .conflict }

/-- What `n` expiries of holds change that abort the groups of the slots `A` (R38, R76). -/
structure HoldsExpired (s t : State) (n : Nat) (A : SlotId → Bool) : Prop where
  slot : ∀ k, t.slot k = if A k = true then (s.slot k).inConflict else s.slot k
  entry : ∀ (i : Fin 96) (e : StagingEntry), t.pool[i] = some e ↔ s.pool[i] = some e ∧ A e.slot = false
  flag : ∀ f, t.flag f = (s.flag f || (decide (f = .holdExpired) && decide (0 < n)) ||
    (decide (f = .groupAborted) && allSlots.any A))
  expiries : t.counter .holdExpiries = saturatingSucc^[n] (s.counter .holdExpiries)
  aborted : t.counter .abortedGroups = saturatingSucc^[allSlots.countP A] (s.counter .abortedGroups)
  counter : ∀ c, c ≠ .holdExpiries → c ≠ .abortedGroups → t.counter c = s.counter c
  lastEnd : ((∀ k, A k = false) ∧ t.ml.lastEnd = s.ml.lastEnd) ∨ ∃ k, A k = true ∧
    t.ml.lastEnd = some { slot := k, source := (s.slot k).owner.getD 0, outcome := .aborted .conflict }

/-- Of two disjoint tests the counts add. -/
theorem countP_or_of_disjoint {α : Type} {p q : α → Bool} (disjoint : ∀ a, p a = true → q a = false) (l : List α) :
    l.countP (fun a => p a || q a) = l.countP q + l.countP p := by
  induction l with
  | nil => rfl
  | cons a l ih =>
    simp only [List.countP_cons, ih]
    cases hp : p a with
    | true => simp [disjoint a hp]; omega
    | false => simp; omega

theorem any_or {α : Type} (p q : α → Bool) (l : List α) : (l.any fun a => p a || q a) = (l.any p || l.any q) := by
  induction l with
  | nil => rfl
  | cons a l ih => simp only [List.any_cons, ih, Bool.or_assoc, Bool.or_left_comm]

namespace HoldsExpired

variable {s t u : State} {m n : Nat} {A B : SlotId → Bool}

theorem refl (s : State) : HoldsExpired s s 0 fun _ => false where
  slot _ := rfl
  entry _ _ := (and_iff_left rfl).symm
  flag f := by simp
  expiries := rfl
  aborted := by rw [List.countP_false]; rfl
  counter _ _ _ := rfl
  lastEnd := .inl ⟨fun _ => rfl, rfl⟩

/-- No group is aborted twice. -/
theorem trans (first : HoldsExpired s t m A) (second : HoldsExpired t u n B)
    (disjoint : ∀ k, A k = true → B k = false) : HoldsExpired s u (n + m) fun k => A k || B k where
  slot k := by
    rw [second.slot, first.slot]
    cases hA : A k with
    | true => simp [disjoint k hA]
    | false => simp
  entry i e := by
    rw [second.entry, first.entry, and_assoc, Bool.or_eq_false_iff]
  flag f := by
    have pos : decide (0 < n + m) = (decide (0 < m) || decide (0 < n)) := by
      rw [← Bool.decide_or]
      exact decide_eq_decide.2 (by omega)
    rw [second.flag, first.flag, any_or, pos]
    cases f <;> simp [Bool.or_assoc]
  expiries := by rw [second.expiries, first.expiries, Function.iterate_add_apply]
  aborted := by
    rw [second.aborted, first.aborted, countP_or_of_disjoint disjoint, Function.iterate_add_apply]
  counter c hc hc' := (second.counter c hc hc').trans (first.counter c hc hc')
  lastEnd := by
    obtain ⟨noneB, last⟩ | ⟨k, hB, last⟩ := second.lastEnd
    · rw [last]
      obtain ⟨noneA, last⟩ | ⟨k, hA, last⟩ := first.lastEnd
      · exact .inl ⟨fun k => by rw [noneA, noneB]; rfl, last⟩
      · exact .inr ⟨k, by rw [hA, Bool.true_or], last⟩
    · have notA : A k = false := Bool.eq_false_iff.2 fun hA => Bool.false_ne_true ((disjoint k hA).symm.trans hB)
      have same : t.slot k = s.slot k := by rw [first.slot, notA]; rfl
      exact .inr ⟨k, by rw [hB, Bool.or_true], by rw [last, same]⟩

/-- The expiry of one hold beside the abort that it may bring. -/
theorem noted (s : State) (src : Source) (e : SourceEntry) :
    HoldsExpired s (((s.setSource src e).count .holdExpiries).setFlag .holdExpired) 1 fun _ => false where
  slot _ := rfl
  entry _ _ := (and_iff_left rfl).symm
  flag f := by
    rw [State.setFlag_flag]
    show (_ || s.flag f) = _
    cases f <;> simp
  expiries := State.count_counter _ _ _
  aborted := by
    rw [List.countP_false]
    exact State.count_counter _ _ _
  counter c hc _ := (State.count_counter _ _ _).trans (if_neg (Ne.symm hc))
  lastEnd := .inl ⟨fun _ => rfl, rfl⟩

theorem aborts (s : State) (k : SlotId) : HoldsExpired s (s.abortGroup k .conflict) 0 fun j => decide (k = j) := by
  have slot := fun j => s.abortSlot_slot j k .conflict
  have entry := s.abortSlot_entry_iff k .conflict
  have flag := (s.abortSlot k .conflict).noteAbort_flag k ((s.slot k).owner.getD 0) .conflict
  have counter := (s.abortSlot k .conflict).noteAbort_counter k ((s.slot k).owner.getD 0) .conflict
  obtain ⟨_, _, noted⟩ := (s.abortSlot k .conflict).noteAbort_eq k ((s.slot k).owner.getD 0) .conflict
  obtain ⟨_, _, aborted⟩ := s.abortSlot_eq k .conflict
  have one : allSlots.countP (fun j => decide (k = j)) = 1 := by fin_cases k <;> rfl
  have some_ : allSlots.any (fun j => decide (k = j)) = true := List.any_eq_true.2 ⟨k, mem_allSlots k, by simp⟩
  rw [State.abortGroup_eq_note]
  rw [noted] at flag counter ⊢
  rw [aborted] at flag counter slot entry ⊢
  refine ⟨fun j => (slot j).trans ?_, fun i e => (entry i e).trans ?_,
    fun f => (flag f).trans ?_, counter .holdExpiries, ?_, fun c _ hc => (counter c).trans (if_neg (by simp [hc])),
    .inr ⟨k, decide_eq_true rfl, rfl⟩⟩
  · by_cases same : k = j
    · subst same
      rw [if_pos rfl, if_pos (decide_eq_true rfl)]
      rfl
    · rw [if_neg same, decide_eq_false same]
      rfl
  · rw [decide_eq_false_iff_not, ne_comm]
  · rw [some_]
    show (s.flag f || decide (f = .groupAborted) || (decide (f = .guardRefused) && false)) = _
    cases f <;> simp
  · rw [one]
    exact counter .abortedGroups

end HoldsExpired

/-! ### The expiry of a hold -/

/-- The source holds a group write into slot `k` (R76). -/
def State.holdsWriteTo (s : State) (src : Source) (k : SlotId) : Bool :=
  decide ((s.source src).link = some k) && (s.source src).hold.any fun h => h.request.isGroup

/-- The groups that the expiry of these holds aborts (R38, R76). -/
def State.abortedBy (s : State) (sources : List Source) (k : SlotId) : Bool :=
  decide ((s.slot k).state = .filling) && sources.any fun i => s.holdsWriteTo i k

/-- The hold's record EXPIRED, counted and flagged (R76). -/
def State.noteExpiry (s : State) (src : Source) (h : Hold) : State :=
  ((s.setSource src { s.source src with hold := some { h with expired := true } }).count .holdExpiries).setFlag
    .holdExpired

section

variable {s : State} {src : Source} {h : Hold}

theorem State.noteExpiry_link : ((s.noteExpiry src h).source src).link = (s.source src).link := by
  have entry : (s.noteExpiry src h).source src = { s.source src with hold := some { h with expired := true } } :=
    s.setSource_source_self src _
  rw [entry]

theorem State.expireHold_of_aborting {k : SlotId} (hold : (s.source src).hold = some h)
    (group : h.request.isGroup = true) (link : (s.source src).link = some k) (filling : (s.slot k).state = .filling) :
    s.expireHold src = (s.noteExpiry src h).abortGroup k .conflict := by
  have link' : ((s.noteExpiry src h).source src).link = some k := State.noteExpiry_link.trans link
  unfold State.noteExpiry at link' ⊢
  unfold State.expireHold
  simp only [hold, group, link']
  exact if_pos filling

theorem State.expireHold_of_kept (hold : (s.source src).hold = some h)
    (kept : ∀ k, h.request.isGroup = true → (s.source src).link = some k → (s.slot k).state ≠ .filling) :
    s.expireHold src = s.noteExpiry src h := by
  have link' := State.noteExpiry_link (s := s) (src := src) (h := h)
  cases group : h.request.isGroup with
  | false =>
    unfold State.expireHold
    simp only [hold, group]
    rfl
  | true =>
    cases link : (s.source src).link with
    | none =>
      rw [link] at link'
      unfold State.noteExpiry at link' ⊢
      unfold State.expireHold
      simp only [hold, group, link']
    | some k =>
      rw [link] at link'
      unfold State.noteExpiry at link' ⊢
      unfold State.expireHold
      simp only [hold, group, link']
      exact if_neg (kept k group link)

/-- The expiry of one hold (R38, R76). -/
theorem HoldsExpired.expireHold (hold : (s.source src).hold = some h) :
    HoldsExpired s (s.expireHold src) 1 (s.abortedBy [src]) := by
  by_cases aborts : h.request.isGroup = true ∧ ∃ k, (s.source src).link = some k ∧ (s.slot k).state = .filling
  · obtain ⟨group, k, link, filling⟩ := aborts
    have slots : s.abortedBy [src] = fun j => false || decide (k = j) := by
      funext j
      by_cases same : k = j
      · subst same
        simp [State.abortedBy, State.holdsWriteTo, hold, group, link, filling]
      · simp [State.abortedBy, State.holdsWriteTo, link, same]
    rw [State.expireHold_of_aborting hold group link filling, slots]
    exact (HoldsExpired.noted s src _).trans (HoldsExpired.aborts _ k) nofun
  · have kept : ∀ k, h.request.isGroup = true → (s.source src).link = some k → (s.slot k).state ≠ .filling :=
      fun k group link filling => aborts ⟨group, k, link, filling⟩
    have slots : s.abortedBy [src] = fun _ => false := by
      funext j
      refine Bool.eq_false_iff.2 fun aborted => ?_
      simp only [State.abortedBy, State.holdsWriteTo, hold, Option.any_some, List.any_cons, List.any_nil, Bool.or_false,
        Bool.and_eq_true, decide_eq_true_eq] at aborted
      obtain ⟨filling, link, group⟩ := aborted
      exact kept j group link filling
    rw [State.expireHold_of_kept hold kept, slots]
    exact HoldsExpired.noted s src _

end

/-- The link and the request of every hold stay at an expiry. -/
theorem State.expireHold_holdsWriteTo (s : State) (src i : Source) (k : SlotId) :
    (s.expireHold src).holdsWriteTo i k = s.holdsWriteTo i k := by
  unfold State.holdsWriteTo
  rw [s.expireHold_source src i]
  by_cases same : i = src
  · rw [if_pos same, Option.any_map]
  · rw [if_neg same]

/-- Several expiries of holds, in whatever order (R70). -/
theorem HoldsExpired.foldl (l : List Source) (s : State) (holds : ∀ i ∈ l, ∃ h, (s.source i).hold = some h) :
    HoldsExpired s (l.foldl State.expireHold s) l.length (s.abortedBy l) := by
  induction l generalizing s with
  | nil =>
    have none_ : s.abortedBy [] = fun _ => false := funext fun k => Bool.and_false _
    rw [none_]
    exact .refl s
  | cons i l ih =>
    obtain ⟨h, hold⟩ := holds i List.mem_cons_self
    have first := HoldsExpired.expireHold hold
    have rest := ih (s.expireHold i) fun j hj => by
      obtain ⟨h, hold⟩ := holds j (List.mem_cons_of_mem i hj)
      rw [s.expireHold_source i j]
      split
      · exact ⟨_, by rw [hold]; rfl⟩
      · exact ⟨h, hold⟩
    have after : ∀ k, (s.expireHold i).abortedBy l k = (!(s.abortedBy [i] k) && s.abortedBy l k) := fun k => by
      have state : decide (((s.expireHold i).slot k).state = .filling) =
          (!(s.abortedBy [i] k) && decide ((s.slot k).state = .filling)) := by
        rw [first.slot k]
        cases s.abortedBy [i] k <;> rfl
      rw [State.abortedBy, state, Bool.and_assoc]
      simp only [State.expireHold_holdsWriteTo]
      rfl
    have all_ : s.abortedBy (i :: l) = fun k => s.abortedBy [i] k || (s.expireHold i).abortedBy l k := by
      funext k
      rw [after]
      simp only [State.abortedBy, List.any_cons, List.any_nil, Bool.or_false]
      cases decide ((s.slot k).state = .filling) <;> cases s.holdsWriteTo i k <;> simp
    rw [all_]
    exact first.trans rest fun k aborted => by rw [after, aborted]; rfl

/-! ### The holds of a tick -/

/-- The expiries of a tick are those of every hold that is due, each once (R70, R75). -/
theorem State.expireHolds_eq_foldl (s : State) : ∃ l : List Source, (∀ i, i ∈ l ↔ s.holdDue i = true) ∧
    l.length = (List.finRange 16).countP s.holdDue ∧
    s.expireHolds = l.foldl State.expireHold
      { s with freeCount := if 2 ≤ (List.finRange 16).countP s.holdDue then s.freeCount + 1 else s.freeCount } := by
  have count : (List.finRange 16).countP s.holdDue = s.dueHolds.length := List.countP_eq_length_filter
  have mem : ∀ i, i ∈ s.dueHolds ↔ s.holdDue i = true := fun i => s.mem_dueHolds
  have nodup : s.dueHolds.Nodup := (List.nodup_finRange 16).filter _
  rw [count]
  unfold State.expireHolds
  match due : s.dueHolds with
  | [] => exact ⟨[], by rw [← due]; exact mem, rfl, rfl⟩
  | [i] => exact ⟨[i], by rw [← due]; exact mem, rfl, rfl⟩
  | i :: j :: rest =>
    rw [due] at mem nodup
    refine ⟨cyclicFrom (Config.firstToExpire s.freeCount) (i :: j :: rest), fun a => mem_cyclicFrom.trans (mem a), ?_, ?_⟩
    · exact ((List.perm_ext_iff_of_nodup (cyclicFrom_nodup nodup) nodup).2 fun _ => mem_cyclicFrom).length_eq
    · rw [if_pos (by simp)]

/-- What the expiries of a tick's holds change. -/
theorem State.expireHolds_expired (s : State) :
    HoldsExpired s s.expireHolds ((List.finRange 16).countP s.holdDue)
      (s.abortedBy ((List.finRange 16).filter s.holdDue)) ∧
    s.expireHolds.freeCount =
      if 2 ≤ (List.finRange 16).countP s.holdDue then s.freeCount + 1 else s.freeCount := by
  obtain ⟨l, mem, length, expires⟩ := s.expireHolds_eq_foldl
  have slots : s.abortedBy l = s.abortedBy ((List.finRange 16).filter s.holdDue) := by
    funext k
    refine congrArg (_ && ·) ?_
    rw [Bool.eq_iff_iff, List.any_eq_true, List.any_eq_true]
    simp only [mem, List.mem_filter, List.mem_finRange, true_and]
  have holds : ∀ i ∈ l, ∃ h, (s.source i).hold = some h := fun i hi => by
    have due := (mem i).1 hi
    cases hold : (s.source i).hold with
    | none => simp [State.holdDue, hold] at due
    | some h => exact ⟨h, rfl⟩
  have expired := HoldsExpired.foldl l { s with
    freeCount := if 2 ≤ (List.finRange 16).countP s.holdDue then s.freeCount + 1 else s.freeCount } holds
  obtain ⟨_, _, _, _, _, _, fields⟩ := State.foldl_expireHold_eq { s with
    freeCount := if 2 ≤ (List.finRange 16).countP s.holdDue then s.freeCount + 1 else s.freeCount } l
  refine ⟨?_, ?_⟩
  · rw [← slots, ← length, expires]
    exact ⟨expired.slot, expired.entry, expired.flag, expired.expiries, expired.aborted, expired.counter,
      expired.lastEnd⟩
  · rw [expires, fields]

/-! ### The notices of a tick -/

/-- What the expiries of notices do to flags and counters (R84). -/
theorem State.foldl_expireNotice (l : List Source) (s : State) :
    (∀ f, (l.foldl State.expireNotice s).flag f =
      (s.flag f || (decide (f = .collectExpired) && decide (0 < l.length)))) ∧
    (l.foldl State.expireNotice s).counter .abandonedNotices =
      saturatingSucc^[l.length] (s.counter .abandonedNotices) ∧
    ∀ c, c ≠ .abandonedNotices → (l.foldl State.expireNotice s).counter c = s.counter c := by
  induction l generalizing s with
  | nil => exact ⟨fun f => by simp, rfl, fun _ _ => rfl⟩
  | cons i l ih =>
    obtain ⟨flag, counter, other⟩ := ih (s.expireNotice i)
    have counted : ∀ c, (s.expireNotice i).counter c =
        if Counter.abandonedNotices = c then saturatingSucc (s.counter .abandonedNotices) else s.counter c := fun c =>
      State.count_counter (s.setCompletion i none) _ c
    have flagged : ∀ f, (s.expireNotice i).flag f = (decide (Flag.collectExpired = f) || s.flag f) := fun f =>
      State.setFlag_flag ((s.setCompletion i none).count .abandonedNotices) _ f
    refine ⟨fun f => ?_, ?_, fun c hc => ?_⟩
    · rw [List.foldl_cons, flag, flagged]
      cases f <;> simp
    · rw [List.foldl_cons, counter, counted, if_pos rfl, List.length_cons, Function.iterate_succ_apply]
    · rw [List.foldl_cons, other c hc, counted, if_neg hc.symm]

end Sys2Proof.Machine
end

section
/-! SUPPORT. A whole tick of the holds and the notices, entry by entry, and the expiry commands (R75, R76, R84, R86). -/

namespace Sys2Proof.Machine

/-! ### A record at a tick -/

theorem le_advanceTimer_iff (limit t : Nat) : limit ≤ advanceTimer limit t ↔ limit ≤ t + 1 := by
  rw [advanceTimer]
  split <;> omega

/-- The hold reaches its limit at this tick (R75). -/
def Hold.dueAfter (limit : Nat) (h : Hold) : Bool := !h.expired && decide (limit ≤ h.timer + 1)

theorem Hold.tick_due (limit : Nat) (h : Hold) :
    (!(h.tick limit).expired && decide (limit ≤ (h.tick limit).timer)) = h.dueAfter limit := by
  cases expired : h.expired <;> simp [Hold.tick, Hold.dueAfter, expired, le_advanceTimer_iff]

/-- A hold after the tick: its timer advanced, EXPIRED when it reaches the limit (R75). -/
theorem Hold.tick_expire (limit : Nat) (h : Hold) :
    (if h.dueAfter limit = true then { h.tick limit with expired := true } else h.tick limit) =
      if h.expired = true then h
      else { h with timer := if h.timer < limit then h.timer + 1 else h.timer,
                    expired := decide (limit ≤ h.timer + 1) } := by
  cases expired : h.expired with
  | true => simp [Hold.dueAfter, Hold.tick, expired]
  | false =>
    by_cases due : limit ≤ h.timer + 1
    · simp [Hold.dueAfter, Hold.tick, expired, due, advanceTimer]
    · simp [Hold.dueAfter, Hold.tick, expired, due, advanceTimer]

theorem Hold.tick_request (limit : Nat) (h : Hold) : (h.tick limit).request = h.request := by
  rw [Hold.tick]
  split <;> rfl

/-- The notice reaches the collect limit at this tick (R84). -/
def Completion.dropsAfter (limit : Nat) (c : Completion) : Bool :=
  match c.status with
  | .waiting => false
  | .ready n => decide (limit ≤ n + 1)

/-- The notice has reached the collect limit (R84). -/
def Completion.collectDue (limit : Nat) (c : Completion) : Bool :=
  match c.status with
  | .waiting => false
  | .ready n => decide (limit ≤ n)

theorem Completion.tick_due (limit : Nat) (c : Completion) :
    (c.tick limit).collectDue limit = c.dropsAfter limit := by
  obtain ⟨notice, status⟩ := c
  cases status with
  | waiting => rfl
  | ready n => exact decide_eq_decide.2 (le_advanceTimer_iff limit n)

/-- A completion record after the tick: dropped when it reaches the limit, else its timer advanced (R84). -/
theorem Completion.tick_drop (limit : Nat) (c : Completion) :
    (if c.dropsAfter limit = true then none else some (c.tick limit)) =
      match c.status with
      | .waiting => some c
      | .ready n => if limit ≤ n + 1 then none else some { c with status := .ready (n + 1) } := by
  obtain ⟨notice, status⟩ := c
  cases status with
  | waiting => rfl
  | ready n =>
    by_cases late : limit ≤ n + 1
    · simp [Completion.dropsAfter, late]
    · simp [Completion.dropsAfter, Completion.tick, advanceTimer, late, show n < limit by omega]

/-! ### The records at a tick -/

section

variable (s : State) (i : Source)

theorem State.holdDue_eq :
    s.holdDue i = (s.source i).hold.any fun h => !h.expired && decide (s.time.holdLimit ≤ h.timer) := by
  cases hold : (s.source i).hold <;> simp [State.holdDue, hold]

theorem State.collectDue_eq : s.collectDue i = (s.source i).completion.any (Completion.collectDue s.time.collectLimit) := by
  unfold State.collectDue
  cases completion : (s.source i).completion with
  | none => rfl
  | some c =>
    obtain ⟨notice, status⟩ := c
    cases status <;> rfl

theorem State.advanceTimers_source : s.advanceTimers.source i = { s.source i with
    hold := (s.source i).hold.map (Hold.tick s.time.holdLimit),
    completion := (s.source i).completion.map (Completion.tick s.time.collectLimit) } :=
  s.mapSources_source _ i

/-- The hold expires at this tick (R75). -/
def State.holdExpires : Bool := (s.source i).hold.any (Hold.dueAfter s.time.holdLimit)

/-- The notice is dropped at this tick (R84). -/
def State.noticeDrops : Bool := (s.source i).completion.any (Completion.dropsAfter s.time.collectLimit)

theorem State.advanceTimers_holdDue : s.advanceTimers.holdDue i = s.holdExpires i := by
  rw [State.holdDue_eq, State.advanceTimers_source, Option.any_map]
  exact congrArg (Option.any · _) (funext (Hold.tick_due s.time.holdLimit))

theorem State.expireHolds_time : s.expireHolds.time = s.time := by
  obtain ⟨_, _, _, _, _, _, _, h⟩ := s.expireHolds_eq
  rw [h]

theorem State.advanceTimers_collectDue : s.advanceTimers.expireHolds.collectDue i = s.noticeDrops i := by
  have completion : (s.advanceTimers.expireHolds.source i).completion =
      (s.source i).completion.map (Completion.tick s.time.collectLimit) := by
    rw [State.expireHolds_source]
    split <;> rw [State.advanceTimers_source]
  rw [State.collectDue_eq, State.expireHolds_time, completion, Option.any_map]
  exact congrArg (Option.any · _) (funext (Completion.tick_due s.time.collectLimit))

/-- The groups that the expiries of a tick abort (R38, R76). -/
def State.tickAborts (k : SlotId) : Bool :=
  decide ((s.slot k).state = .filling) && (List.finRange 16).any fun i =>
    s.holdExpires i && decide ((s.source i).link = some k) && (s.source i).hold.any fun h => h.request.isGroup

theorem State.advanceTimers_abortedBy :
    s.advanceTimers.abortedBy ((List.finRange 16).filter s.advanceTimers.holdDue) = s.tickAborts := by
  have writes : ∀ i k, s.advanceTimers.holdsWriteTo i k = s.holdsWriteTo i k := fun i k => by
    unfold State.holdsWriteTo
    rw [State.advanceTimers_source, Option.any_map]
    simp only [Hold.tick_request]
  funext k
  refine congrArg (decide ((s.slot k).state = .filling) && ·) ?_
  rw [List.any_filter]
  simp only [State.advanceTimers_holdDue, writes]
  simp only [State.holdsWriteTo, Bool.and_assoc]

theorem State.tick_hold :
    (if s.holdExpires i = true then
        ((s.source i).hold.map (Hold.tick s.time.holdLimit)).map fun h => { h with expired := true }
      else (s.source i).hold.map (Hold.tick s.time.holdLimit)) =
      (s.source i).hold.map fun h =>
        if h.expired = true then h
        else { h with timer := if h.timer < s.time.holdLimit then h.timer + 1 else h.timer,
                      expired := decide (s.time.holdLimit ≤ h.timer + 1) } := by
  unfold State.holdExpires
  cases (s.source i).hold with
  | none => rfl
  | some h =>
    simp only [Option.any_some, Option.map_some, ← Hold.tick_expire]
    split <;> rfl

theorem State.tick_completion :
    (if s.noticeDrops i = true then none else (s.source i).completion.map (Completion.tick s.time.collectLimit)) =
      (s.source i).completion.bind fun c =>
        match c.status with
        | .waiting => some c
        | .ready n => if s.time.collectLimit ≤ n + 1 then none else some { c with status := .ready (n + 1) } := by
  unfold State.noticeDrops
  cases (s.source i).completion with
  | none => rfl
  | some c => exact Completion.tick_drop s.time.collectLimit c

/-- The entry of a source after the tick (R75, R84). -/
theorem State.tickSources_source (run : s.timersRun = true) : s.tickSources.source i = { s.source i with
    hold := (s.source i).hold.map fun h =>
      if h.expired = true then h
      else { h with timer := if h.timer < s.time.holdLimit then h.timer + 1 else h.timer,
                    expired := decide (s.time.holdLimit ≤ h.timer + 1) }
    completion := (s.source i).completion.bind fun c =>
      match c.status with
      | .waiting => some c
      | .ready n => if s.time.collectLimit ≤ n + 1 then none else some { c with status := .ready (n + 1) } } := by
  rw [State.tickSources, if_pos run, State.expireNotices_source, State.advanceTimers_collectDue, State.expireHolds_source,
    State.advanceTimers_holdDue, State.advanceTimers_source, ← s.tick_hold i, ← s.tick_completion i]
  cases s.noticeDrops i <;> cases s.holdExpires i <;> rfl

end

/-! ### The whole tick -/

section

variable {s : State}

theorem State.timersRun_iff : s.timersRun = true ↔ s.power = .up ∧ s.op = .running ∧ s.mp.port = .active := by
  simp only [State.timersRun, Bool.and_eq_true, decide_eq_true_eq, and_assoc]

theorem State.tickSources_of_run (run : s.timersRun = true) :
    s.tickSources = s.advanceTimers.expireHolds.expireNotices := if_pos run

/-- What a tick of the sources changes (R75, R76, R84). -/
theorem State.tickSources_fields (run : s.timersRun = true) : s.tickSources =
    { s with sources := s.tickSources.sources, slots := s.tickSources.slots, pool := s.tickSources.pool,
             freeCount := s.tickSources.freeCount,
             ml := { s.ml with flags := s.tickSources.ml.flags, counters := s.tickSources.ml.counters,
                               lastEnd := s.tickSources.ml.lastEnd } } := by
  obtain ⟨_, _, _, notices⟩ := s.advanceTimers.expireHolds.expireNotices_eq
  obtain ⟨_, _, _, _, _, _, _, holds⟩ := s.advanceTimers.expireHolds_eq
  rw [State.tickSources_of_run run, notices, holds]
  rfl

theorem HoldsExpired.of_eq {x t : State} {n : Nat} {A : SlotId → Bool} (h : HoldsExpired x t n A)
    (slots : x.slots = s.slots) (pool : x.pool = s.pool) (ml : x.ml = s.ml) : HoldsExpired s t n A := by
  obtain ⟨slot, entry, flag, expiries, aborted, counter, lastEnd⟩ := h
  simp only [State.slot, State.flag, State.counter, slots, pool, ml] at *
  exact ⟨slot, entry, flag, expiries, aborted, counter, lastEnd⟩

/-- The holds' part of a tick (R38, R76). -/
theorem State.advanceTimers_expired (s : State) :
    HoldsExpired s s.advanceTimers.expireHolds ((List.finRange 16).countP s.holdExpires) s.tickAborts ∧
    s.advanceTimers.expireHolds.freeCount =
      if 2 ≤ (List.finRange 16).countP s.holdExpires then s.freeCount + 1 else s.freeCount := by
  have due : s.advanceTimers.holdDue = s.holdExpires := funext s.advanceTimers_holdDue
  have holds := s.advanceTimers.expireHolds_expired
  rw [s.advanceTimers_abortedBy, due, show s.advanceTimers.freeCount = s.freeCount from rfl] at holds
  obtain ⟨expired, freeCount⟩ := holds
  exact ⟨expired.of_eq (s.mapSources_slots _) (s.mapSources_pool _) (s.mapSources_ml _), freeCount⟩

/-- The notices' part of a tick leaves slots, entries and the last-end record (R84). -/
theorem State.expireNotices_kept (s : State) : s.expireNotices.slots = s.slots ∧ s.expireNotices.pool = s.pool ∧
    s.expireNotices.ml.lastEnd = s.ml.lastEnd ∧ s.expireNotices.freeCount = s.freeCount := by
  obtain ⟨_, _, _, h⟩ := s.expireNotices_eq
  rw [h]
  exact ⟨rfl, rfl, rfl, rfl⟩

/-- The notices' part of a tick, counted and flagged (R84). -/
theorem State.expireNotices_counted (s : State) :
    (∀ f, s.expireNotices.flag f =
      (s.flag f || (decide (f = .collectExpired) && (List.finRange 16).any s.collectDue))) ∧
    s.expireNotices.counter .abandonedNotices =
      saturatingSucc^[(List.finRange 16).countP s.collectDue] (s.counter .abandonedNotices) ∧
    ∀ c, c ≠ .abandonedNotices → s.expireNotices.counter c = s.counter c := by
  have count : ((List.finRange 16).filter s.collectDue).length = (List.finRange 16).countP s.collectDue :=
    List.countP_eq_length_filter.symm
  have some_ : decide (0 < (List.finRange 16).countP s.collectDue) = (List.finRange 16).any s.collectDue := by
    rw [Bool.eq_iff_iff, decide_eq_true_eq, List.countP_pos_iff, List.any_eq_true]
  have fold := State.foldl_expireNotice ((List.finRange 16).filter s.collectDue) s
  rw [count, some_] at fold
  exact fold

end

/-- In RUNNING with the port ACTIVE a tick reaches every hold and every notice. -/
theorem tickSources_changes {s : State} (run : s.timersRun = true) :
    (∀ k, s.tickSources.slot k = if s.tickAborts k = true then (s.slot k).inConflict else s.slot k) ∧
    (∀ (i : Fin 96) (e : StagingEntry),
      s.tickSources.pool[i] = some e ↔ s.pool[i] = some e ∧ s.tickAborts e.slot = false) ∧
    (∀ f, s.tickSources.flag f =
      (s.flag f || (decide (f = .holdExpired) && (List.finRange 16).any s.holdExpires) ||
        (decide (f = .collectExpired) && (List.finRange 16).any s.noticeDrops) ||
        (decide (f = .groupAborted) && allSlots.any s.tickAborts))) ∧
    s.tickSources.counter .holdExpiries =
      saturatingSucc^[(List.finRange 16).countP s.holdExpires] (s.counter .holdExpiries) ∧
    s.tickSources.counter .abandonedNotices =
      saturatingSucc^[(List.finRange 16).countP s.noticeDrops] (s.counter .abandonedNotices) ∧
    s.tickSources.counter .abortedGroups =
      saturatingSucc^[allSlots.countP s.tickAborts] (s.counter .abortedGroups) ∧
    (∀ c, c ≠ .holdExpiries → c ≠ .abandonedNotices → c ≠ .abortedGroups →
      s.tickSources.counter c = s.counter c) ∧
    ((∀ k, s.tickAborts k = false) → s.tickSources.ml.lastEnd = s.ml.lastEnd) ∧
    ((∃ k, s.tickAborts k = true) → ∃ k, s.tickAborts k = true ∧ s.tickSources.ml.lastEnd =
      some { slot := k, source := (s.slot k).owner.getD 0, outcome := .aborted .conflict }) ∧
    s.tickSources.freeCount =
      if 2 ≤ (List.finRange 16).countP s.holdExpires then s.freeCount + 1 else s.freeCount := by
  obtain ⟨holds, freeCount⟩ := s.advanceTimers_expired
  obtain ⟨slots, pool, lastEnd, free⟩ := s.advanceTimers.expireHolds.expireNotices_kept
  obtain ⟨flag, dropped, counter⟩ := s.advanceTimers.expireHolds.expireNotices_counted
  have drops : s.advanceTimers.expireHolds.collectDue = s.noticeDrops := funext s.advanceTimers_collectDue
  have any_ : decide (0 < (List.finRange 16).countP s.holdExpires) = (List.finRange 16).any s.holdExpires := by
    rw [Bool.eq_iff_iff, decide_eq_true_eq, List.countP_pos_iff, List.any_eq_true]
  rw [drops] at flag dropped
  rw [State.tickSources_of_run run]
  refine ⟨fun k => (State.slot_congr slots k).trans (holds.slot k), fun i e => ?_, fun f => ?_,
    (counter _ (by decide)).trans holds.expiries, ?_, (counter _ (by decide)).trans holds.aborted,
    fun c hold notice group => (counter c notice).trans (holds.counter c hold group), fun none_ => ?_, fun some_ => ?_,
    free.trans freeCount⟩
  · rw [pool, holds.entry]
  · rw [flag, holds.flag, any_]
    cases f <;> simp
  · rw [dropped, holds.counter _ (by decide) (by decide)]
  · obtain ⟨_, last⟩ | ⟨k, aborts, _⟩ := holds.lastEnd
    · exact lastEnd.trans last
    · exact absurd aborts (Bool.eq_false_iff.1 (none_ k))
  · obtain ⟨none_, _⟩ | ⟨k, aborts, last⟩ := holds.lastEnd
    · obtain ⟨k, aborts⟩ := some_
      exact absurd aborts (Bool.eq_false_iff.1 (none_ k))
    · exact ⟨k, aborts, lastEnd.trans last⟩

/-! ### The expiry commands -/

section

variable {s : State} {src : Source}

/-- The tick as it reaches the source's hold timer alone (R75). -/
def State.holdTicked (s : State) (src : Source) : State :=
  s.setSource src { s.source src with hold := (s.source src).hold.map (Hold.tick s.time.holdLimit) }

/-- The tick as it reaches the source's collect timer alone (R84). -/
def State.noticeTicked (s : State) (src : Source) : State :=
  s.setCompletion src ((s.source src).completion.map (Completion.tick s.time.collectLimit))

theorem State.holdTicked_source :
    (s.holdTicked src).source src =
      { s.source src with hold := (s.source src).hold.map (Hold.tick s.time.holdLimit) } :=
  s.setSource_source_self src _

theorem State.holdTicked_holdDue : (s.holdTicked src).holdDue src = s.holdExpires src := by
  rw [State.holdDue_eq, State.holdTicked_source, Option.any_map]
  exact congrArg (Option.any · _) (funext (Hold.tick_due s.time.holdLimit))

theorem State.noticeTicked_collectDue : (s.noticeTicked src).collectDue src = s.noticeDrops src := by
  have completion : ((s.noticeTicked src).source src).completion =
      (s.source src).completion.map (Completion.tick s.time.collectLimit) :=
    congrArg SourceEntry.completion (s.setSource_source_self src _)
  rw [State.collectDue_eq, completion, Option.any_map]
  exact congrArg (Option.any · _) (funext (Completion.tick_due s.time.collectLimit))

theorem exec_holdExpiry_of_due (run : s.timersRun = true) (due : s.holdExpires src = true) :
    exec (.holdExpiry src) s = .next ((s.quiet.holdTicked src).expireHold src) := by
  have both : (s.quiet.timersRun && (s.quiet.holdTicked src).holdDue src) = true := by
    rw [State.holdTicked_holdDue]
    exact Bool.and_eq_true_iff.2 ⟨run, due⟩
  exact congrArg Host.Outcome.next (if_pos both)

theorem exec_holdExpiry_of_not (no : s.timersRun = false ∨ s.holdExpires src = false) :
    exec (.holdExpiry src) s = .next s.quiet := by
  have neither : (s.quiet.timersRun && (s.quiet.holdTicked src).holdDue src) = false := by
    rw [State.holdTicked_holdDue]
    exact Bool.and_eq_false_iff.2 no
  exact congrArg Host.Outcome.next (if_neg (Bool.eq_false_iff.1 neither))

theorem exec_collectExpiry_of_due (run : s.timersRun = true) (due : s.noticeDrops src = true) :
    exec (.collectExpiry src) s = .next ((s.quiet.noticeTicked src).expireNotice src) := by
  have both : (s.quiet.timersRun && (s.quiet.noticeTicked src).collectDue src) = true := by
    rw [State.noticeTicked_collectDue]
    exact Bool.and_eq_true_iff.2 ⟨run, due⟩
  exact congrArg Host.Outcome.next (if_pos both)

theorem exec_collectExpiry_of_not (no : s.timersRun = false ∨ s.noticeDrops src = false) :
    exec (.collectExpiry src) s = .next s.quiet := by
  have neither : (s.quiet.timersRun && (s.quiet.noticeTicked src).collectDue src) = false := by
    rw [State.noticeTicked_collectDue]
    exact Bool.and_eq_false_iff.2 no
  exact congrArg Host.Outcome.next (if_neg (Bool.eq_false_iff.1 neither))

/-- The source's hold, its timer brought to the limit, noted EXPIRED (R76). -/
theorem State.holdTicked_noteExpiry {h : Hold} (fresh : h.expired = false) :
    (s.holdTicked src).noteExpiry src (h.tick s.time.holdLimit) =
      ((s.setSource src { s.source src with
          hold := some { h with expired := true,
                                timer := if h.timer < s.time.holdLimit then h.timer + 1 else h.timer } }).count
        .holdExpiries).setFlag .holdExpired := by
  have ticked : { h.tick s.time.holdLimit with expired := true } =
      { h with expired := true, timer := if h.timer < s.time.holdLimit then h.timer + 1 else h.timer } := by
    simp [Hold.tick, fresh, advanceTimer]
  rw [State.noteExpiry, State.holdTicked_source, ticked, State.holdTicked, State.setSource_setSource]

theorem State.noticeTicked_expireNotice :
    (s.noticeTicked src).expireNotice src =
      ((s.setSource src { s.source src with completion := none }).count .abandonedNotices).setFlag .collectExpired := by
  have source : (s.noticeTicked src).source src = { s.source src with
      completion := (s.source src).completion.map (Completion.tick s.time.collectLimit) } :=
    s.setSource_source_self src _
  rw [State.expireNotice, State.setCompletion, source, State.noticeTicked, State.setCompletion, State.setSource_setSource]

end

/-- Settles O31: the tick by its parts, holds then notices; the commands by the one timer that they reach. -/
theorem holdsAndNoticesExpire : Obligations.HoldsAndNoticesExpire := by
  refine ⟨fun s src stopped => ?stopped, fun s up running active => ?tick, fun s src up running active => ?commands⟩
  case stopped =>
    have no : s.timersRun = false := by
      refine Bool.eq_false_iff.2 fun run => ?_
      obtain ⟨up, running, active⟩ := State.timersRun_iff.1 run
      exact stopped.elim (· up) (·.elim (· running) (· active))
    exact ⟨if_neg (Bool.eq_false_iff.1 no), exec_holdExpiry_of_not (.inl no), exec_collectExpiry_of_not (.inl no)⟩
  case tick =>
    intro expires drops aborts
    have run : s.timersRun = true := State.timersRun_iff.2 ⟨up, running, active⟩
    have expires_eq : s.holdExpires = expires := rfl
    have drops_eq : s.noticeDrops = drops := rfl
    have aborts_eq : s.tickAborts = aborts := by
      funext k
      refine congrArg (decide ((s.slot k).state = .filling) && ·) (congrArg (List.any _) (funext fun i => ?_))
      refine congrArg (_ && ·) (congrArg (Option.any · (s.source i).hold) (funext fun h => ?_))
      cases h.request <;> rfl
    have changes := tickSources_changes run
    rw [expires_eq, drops_eq, aborts_eq] at changes
    exact ⟨_, rfl, State.tickSources_fields run, fun i => s.tickSources_source i run, changes⟩
  case commands =>
    have run : s.timersRun = true := State.timersRun_iff.2 ⟨up, running, active⟩
    refine ⟨fun h hold fresh due => ?_, fun early => ?_, fun c n completion status due => ?_, fun early => ?_⟩
    · have due' : s.holdExpires src = true := by
        simp [State.holdExpires, hold, Hold.dueAfter, fresh, due]
      have hold' : ((s.quiet.holdTicked src).source src).hold = some (h.tick s.time.holdLimit) := by
        rw [State.holdTicked_source]
        exact congrArg (Option.map _) hold
      have noted := State.holdTicked_noteExpiry (s := s.quiet) (src := src) fresh
      intro t
      refine ⟨fun other => ?_, fun a k request link filling => ?_⟩
      · have loose : (h.tick s.time.holdLimit).request.isGroup = false := by
          rw [Hold.tick_request]
          cases request : h.request with
          | group a => exact absurd request (other a)
          | loose | openMark => rfl
        rw [exec_holdExpiry_of_due run due', State.expireHold_of_kept hold' fun k group => by
          rw [loose] at group
          cases group]
        exact congrArg Host.Outcome.next noted
      · have group : (h.tick s.time.holdLimit).request.isGroup = true := by
          rw [Hold.tick_request, request]
          rfl
        have link' : ((s.quiet.holdTicked src).source src).link = some k := by
          rw [State.holdTicked_source]
          exact link
        rw [exec_holdExpiry_of_due run due', State.expireHold_of_aborting hold' group link' filling]
        exact congrArg (fun x => Host.Outcome.next (State.abortGroup x k .conflict)) noted
    · refine exec_holdExpiry_of_not (.inr ?_)
      cases hold : (s.source src).hold with
      | none => simp [State.holdExpires, hold]
      | some h =>
        obtain expired | less := early h hold
        · simp [State.holdExpires, hold, Hold.dueAfter, expired]
        · simp [State.holdExpires, hold, Hold.dueAfter, Nat.not_le.2 less]
    · have due' : s.noticeDrops src = true := by
        simp [State.noticeDrops, completion, Completion.dropsAfter, status, due]
      rw [exec_collectExpiry_of_due run due', State.noticeTicked_expireNotice]
      rfl
    · refine exec_collectExpiry_of_not (.inr ?_)
      cases completion : (s.source src).completion with
      | none => simp [State.noticeDrops, completion]
      | some c =>
        obtain waiting | ⟨n, ready, less⟩ := early c completion
        · simp [State.noticeDrops, completion, Completion.dropsAfter, waiting]
        · simp [State.noticeDrops, completion, Completion.dropsAfter, ready, Nat.not_le.2 less]

end Sys2Proof.Machine
end
